-- ==== Sys2Proof/Word.lean ====
section
/-! DEFINITION. Words and bytes of the engine, and the plainest arithmetic on them. -/

namespace Sys2Proof

/-- A byte of a scratchpad, an instruction store, a flash device or a message. -/
abbrev Byte := BitVec 8

/-- A 32-bit word: a tile scalar register, a control register, a word of a descriptor. -/
abbrev Word := BitVec 32

/-- Bits `[lo + n - 1 : lo]` of a number (bit ranges are written `[msb:lsb]`, R8). -/
def bitsN (w lo n : Nat) : Nat := (w / 2 ^ lo) % 2 ^ n

/-- Bits `[lo + n - 1 : lo]` of a word, as a number. -/
def bitsW (w : Word) (lo n : Nat) : Nat := bitsN w.toNat lo n

/-- Bit `i` of a word. -/
def bitW (w : Word) (i : Nat) : Bool := bitsW w i 1 == 1

/-- `a` divided by `b`, rounded up; `b` is positive wherever it is used. -/
def ceilDiv (a b : Nat) : Nat := (a + b - 1) / b

/-- A value held between two ends of a range: the nearer end replaces a value outside it (R63, R82, R201, R237). -/
def clampN (lo hi v : Nat) : Nat := if v < lo then lo else if hi < v then hi else v

/-- A counter that stops at `top`. -/
def satAdd (top a b : Nat) : Nat := min top (a + b)

end Sys2Proof
end

