-- ==== Sys2Proof/Syntax.lean ====
section
/-! DEFINITION. The commands of the block: the operands a command carries, and one constructor for each row of
spec/opcode_table.json. A tile is named by its tile ID (R12), a field by its field number (R14), a span by its span ID. -/

namespace Sys2Proof

/-! ## Sequencer instruction formats (R41, Table 02.2). Every field of the format is an operand, the fields that must
be zero too, so that an encoding which breaks R41 can be presented and takes the ILLEGAL trap. -/

/-- Format RR: `[10:7]` rd, `[14:11]` rs1, `[18:15]` rs2, `[22:19]` FN, `[31:23]` the rest. -/
structure RR where
  rd : BitVec 4
  rs1 : BitVec 4
  rs2 : BitVec 4
  fn : BitVec 4
  hi : BitVec 9
  deriving DecidableEq, Repr

/-- Format RI: rd, rs1, imm17 in `[31:15]`. -/
structure RI where
  rd : BitVec 4
  rs1 : BitVec 4
  imm : BitVec 17
  deriving DecidableEq, Repr

/-- Format SH: rd, rs1, shamt in `[19:15]`, KIND in `[21:20]`, `[31:22]` zero. -/
structure SH where
  rd : BitVec 4
  rs1 : BitVec 4
  shamt : BitVec 5
  kind : BitVec 2
  hi : BitVec 10
  deriving DecidableEq, Repr

/-- Format M: rd (data), rs1 (base), `[16:15]` zero, `[18:17]` W, imm13 in `[31:19]`. -/
structure MF where
  rd : BitVec 4
  rs1 : BitVec 4
  z : BitVec 2
  w : BitVec 2
  imm : BitVec 13
  deriving DecidableEq, Repr

/-- Format U: rd, imm21 in `[31:11]`. -/
structure UF where
  rd : BitVec 4
  imm : BitVec 21
  deriving DecidableEq, Repr

/-- Format B: cond in `[10:7]`, imm21 in `[31:11]`. -/
structure BF where
  cond : BitVec 4
  imm : BitVec 21
  deriving DecidableEq, Repr

/-- Format S: rd, rs1, `[18:15]` zero, special-register number in `[31:19]`. -/
structure SF where
  rd : BitVec 4
  rs1 : BitVec 4
  z : BitVec 4
  num : BitVec 13
  deriving DecidableEq, Repr

/-- Format X: rd, ra, rb, KIND (given by the command), SUB in `[26:23]`, `[31:27]` zero. -/
structure XF where
  rd : BitVec 4
  ra : BitVec 4
  rb : BitVec 4
  sub : BitVec 4
  hi : BitVec 5
  deriving DecidableEq, Repr

/-- The operand bits `[11:2]` of a 16-bit instruction (R45): a in `[11:8]`, b in `[7:4]`, c in `[3:2]`. -/
structure CHalf where
  a : BitVec 4
  b : BitVec 4
  c : BitVec 2
  deriving DecidableEq, Repr

/-- An instruction in its 32-bit form or in the 16-bit form of the same row (R45). -/
inductive Enc (α : Type) where
  | w (f : α)
  | c (h : CHalf)
  deriving DecidableEq, Repr

/-- The forms of the ALU row: the 32-bit instruction; C.MV and C.ADD to C.XOR (OP4 0 to 5); and the encodings that no
row of Tables 02.3 and 02.7 defines, which take the ILLEGAL trap (R40, R42, R45, R57). -/
inductive AluForm where
  | w (f : RR)
  | c (op4 : Fin 6) (h : CHalf)
  | undef16 (h : BitVec 16)
  | undef32 (w : Word)
  deriving DecidableEq, Repr

/-- The forms of the ADDI row: ADDI, C.LI and C.ADDI. -/
inductive AddiForm where
  | w (f : RI)
  | li (h : CHalf)
  | addi (h : CHalf)
  deriving DecidableEq, Repr

/-- The forms of the SHI row: SHI, C.SHLI and C.SHRI. -/
inductive ShiForm where
  | w (f : SH)
  | shli (h : CHalf)
  | shri (h : CHalf)
  deriving DecidableEq, Repr

/-- The remote operations of Table 02.6 that RMO issues into the issue buffer. -/
inductive RmoKind where
  | put | get | atomic | signal | send | flowReset | putReduce
  deriving DecidableEq, Repr

/-- An instruction that stalls at issue on a full buffer or queue, or on the scoreboard (R47, R48, R69, R181). -/
inductive Stallable where
  | rmo (k : RmoKind) (x : XF)
  | edesc (f : RR)
  | emitW (f : RR)
  | emitC (h : CHalf)
  deriving DecidableEq, Repr

/-! ## The mesh -/

/-- A direction of the mesh. -/
inductive Dir where
  | east | west | north | south
  deriving DecidableEq, Repr

/-- The packet kinds of Table 10.3, and those that pass only between Viaduct Piers (R217, R365). -/
inductive PktOp where
  | put | get | atomic | signal | send | creditReq | creditRet | putReduce | resp | getResp | creditGrant
  | hello | helloAck | timeReq | timeResp | parity
  deriving DecidableEq, Repr

/-- The answer codes of Table 10.4. -/
inductive Code where
  | ok | staleCourse | retry | addressFault | unreachable | spanReset | destOff | uncorrectable | readerGone
  | reduceMismatch | linkDown | flowStopped | qfullTimeout | responseTimeout
  deriving DecidableEq, Repr

/-- The CODE of Table 10.4. -/
def Code.toNat : Code → Nat
  | .ok => 0x00 | .staleCourse => 0x01 | .retry => 0x02 | .addressFault => 0x10 | .unreachable => 0x11
  | .spanReset => 0x12 | .destOff => 0x13 | .uncorrectable => 0x14 | .readerGone => 0x15
  | .reduceMismatch => 0x16 | .linkDown => 0x17 | .flowStopped => 0x20 | .qfullTimeout => 0x21
  | .responseTimeout => 0x22

/-- Does the code stop the flow it is given in (Table 10.4, column Flow)? -/
def Code.isFailure : Code → Bool
  | .ok | .staleCourse | .retry => false
  | _ => true

/-- A packet: the routing header and reduction key of Table 09.1, the contributor flit, words 4 to 7 of Table 10.2, the
payload bytes, and on a Viaduct link the transaction word of R365. A field a kind does not carry is 0. -/
structure Packet where
  op : PktOp
  dest : Nat := 0
  vc : Nat := 0
  reduce : Bool := false
  bcast : Bool := false
  out : Bool := false
  flits : Nat := 1
  rtEpoch : Nat := 0
  waypoint : Nat := 0
  wpv : Bool := false
  dcnt : Nat := 0
  rfmt : Bool := false
  flags : BitVec 6 := 0
  rid : Nat := 0
  doff : Nat := 0
  /-- contributors in entry order: tile ID and engine ID -/
  contribs : List (Nat × Nat) := []
  sub : BitVec 4 := 0
  /-- length in bytes; 0 where the kind has none -/
  len : Nat := 0
  opid : Nat := 0
  span : Nat := 0
  code : Code := .ok
  srcTile : Nat := 0
  srcEng : Nat := 0
  /-- 0 tile, 1 Keystone, 2 Pier bulk mover -/
  srcKind : Nat := 0
  addr : BitVec 48 := 0
  tag : BitVec 14 := 0
  gen : Nat := 0
  slots : BitVec 8 := 0
  run : Nat := 0
  queue : Nat := 0
  old : BitVec 64 := 0
  data : List Byte := []
  deng : Nat := 0
  seng : Nat := 0
  dport : Nat := 0
  ret : Bool := false
  /-- the model's own: a CREDIT_RET that returns slots to a message's sender (R231), not to the receiving queue (R232) -/
  toSender : Bool := false
  /-- the model's own: the tile an answer or credit packet is for at another engine, while DEST names an attachment tile -/
  rdest : Nat := 0
  /-- a CREDIT_REQ's reserved bits of word 6 (R215) -/
  rsv : Nat := 0
  /-- the model's own: which operation of its sender an OPID stands for, and the same, OPID first, of each contributor
  (R213, R219; log 81) -/
  serial : Nat := 0
  cops : List (Nat × Nat) := []
  deriving DecidableEq, Repr

/-- Where a request arrives: at a tile, or at a Keystone (space 3). -/
inductive Place where
  | tile (t : Nat)
  | keystone (north : Bool)
  deriving DecidableEq, Repr

/-- A detour table entry (Table 09.6). `dir` is the blocked direction matched. -/
structure DetourEntry where
  valid : Bool
  dir : Dir
  xLo : Nat
  xHi : Nat
  yLo : Nat
  yHi : Nat
  waypoint : Nat
  deriving DecidableEq, Repr

/-- What the Keystone writes into a router or its network interface over VC3 or the field chain (R205 to R207, R209,
R261). A link-state bit is 1 where the link is blocked; bits 0 to 3 are east, north, west, south (Table 09.6's order). -/
inductive RouterCfg where
  | linkState (b : BitVec 4)
  | tables (es : List DetourEntry) (epoch : Nat)
  | mask (b : BitVec 4)
  | bisque (b : BitVec 4) (es : List DetourEntry) (mask : BitVec 4)
  deriving DecidableEq, Repr

/-- A link and the errors counted in each direction in the measurement window (R266, R267). `outward` names an
attachment link by its edge tile (R16). -/
structure LinkCount where
  tile : Nat
  dir : Dir
  outward : Bool
  there : Nat
  back : Nat
  deriving DecidableEq, Repr

/-- The source a match or steering unit takes a token from (R70). -/
inductive TokSrc where
  | steering
  | local
  | queue (i : Nat)
  deriving DecidableEq, Repr

/-- Bytes that step 3 of a course change writes at a tile (R85): DEST is 0 scratchpad, 1 instruction store, 2 action table, as
in the content directory. -/
structure TileLoad where
  tile : Nat
  dest : Nat
  off : Nat
  data : List Byte
  deriving DecidableEq, Repr

/-- A course change that the runtime asks for: the span, and what its step 3 loads (R85). -/
structure CourseReq where
  span : Nat
  loads : List TileLoad := []
  deriving DecidableEq, Repr

/-- What a regulator group's own comparators have shown: the field, mV, mA, and for how many ns (R302). -/
structure GroupShown where
  field : Nat
  mv : Int
  ma : Int
  ns : Nat
  deriving DecidableEq, Repr

/-- A request presented to the bank-port arbiter (R173). -/
structure BankReq where
  input : Nat
  bank : Nat
  write : Bool
  /-- on input 4: the write is the vector engine's -/
  vec : Bool := false
  deriving DecidableEq, Repr

/-! ## Management, host and fabric -/

/-- One of the two Keystones. -/
inductive Side where
  | south | north
  deriving DecidableEq, Repr

/-- What faults a span (R251). -/
inductive SpanFaultCause where
  | trapped (t : Nat)
  | retired (t : Nat)
  | supply (f : Nat)
  deriving DecidableEq, Repr

/-- A register named by a write that has no behaviour of its own (R9): a space-1 offset of a tile, written over VC3 by a
Keystone or not; a BAR2 offset of a PCIe port; an offset of a status window copy. -/
inductive RegRef where
  | tile (t off : Nat) (keystone : Bool)
  | bar2 (h off : Nat)
  | window (off : Nat)
  deriving DecidableEq, Repr

/-- What a read of host memory brings: bytes from the address on, or a failure. -/
inductive HostRead where
  | bytes (bs : List (Nat × Byte)) (len : Nat)
  | failed
  deriving DecidableEq, Repr

/-- A completion the host gives a non-posted request (R348). -/
inductive HostCompletion where
  | data (bs : List Byte)
  | unsupported
  | abort
  | poisoned
  | ecrc
  deriving DecidableEq, Repr

/-- Why a PCIe port goes down (R356). -/
inductive DownCause where
  | dlDown | hotReset | flr | bmeCleared | clockFault
  deriving DecidableEq, Repr

/-- A frame of a Viaduct link as its receiver sees it (R361): the header, whether the FEC decoder and the CRC accept it,
and the packets whose last flit it carries. -/
structure Frame where
  fseq : Nat
  ack : Nat
  nak : Bool
  slots : BitVec 19
  credits : List Nat
  fecOk : Bool
  crcOk : Bool
  packets : List Packet
  deriving DecidableEq, Repr

/-- An event report on its way to the active Keystone (R423). -/
structure EventReport where
  code : Nat
  src : Nat
  tile : Option Nat := none
  field : Option Nat := none
  span : Option Nat := none
  arg : Nat := 0
  count : Nat := 1
  deriving DecidableEq, Repr

/-- A node of the gate tree (Table 15.6). -/
inductive GateNode where
  | field (n : Nat)
  | fabric (n : Nat)
  | compute (t : Nat)
  | seq (t : Nat)
  | mat (t : Nat)
  | vec (t : Nat)
  | pierMesh (p : Nat)
  deriving DecidableEq, Repr

/-- The transport of an SPDM request (Table 20.5): MCTP on port Hh, or the sideband. -/
inductive Transport where
  | port (h : Nat)
  | sideband
  deriving DecidableEq, Repr

/-- A key slot of an IDE stream: key set, direction and sub-stream (R419). -/
structure KeySlot where
  set : Nat
  rx : Bool
  sub : Nat
  deriving DecidableEq, Repr

/-- The commands, in one constructor for each row of spec/opcode_table.json. -/
inductive Instr where
  | alu (t : Nat) (f : AluForm)
  | addi (t : Nat) (f : AddiForm)
  | andi (t : Nat) (f : RI)
  | ori (t : Nat) (f : RI)
  | xori (t : Nat) (f : RI)
  | shi (t : Nat) (f : ShiForm)
  | cmp (t : Nat) (f : Enc RR)
  | cmpi (t : Nat) (f : Enc RI)
  | lui (t : Nat) (f : UF)
  | ld (t : Nat) (f : Enc MF)
  | st (t : Nat) (f : Enc MF)
  | bcc (t : Nat) (f : Enc BF)
  | jal (t : Nat) (f : Enc UF)
  | jalr (t : Nat) (f : Enc RI)
  | mfs (t : Nat) (f : Enc SF)
  | mts (t : Nat) (f : SF)
  | selc (t : Nat) (f : RR)
  | edesc (t : Nat) (f : RR)
  | waite (t : Nat) (f : Enc RR)
  | waitw (t : Nat) (f : RR)
  | waitwPoll (t : Nat)
  | emit (t : Nat) (f : Enc RR)
  | doneHandler (t : Nat) (f : Enc RR)
  | trapSoft (t : Nat) (f : RR)
  | rtt (t : Nat) (f : Enc RR)
  | halt (t : Nat) (f : RR)
  | cNop (t : Nat) (h : CHalf)
  | rmoPut (t : Nat) (x : XF)
  | rmoGet (t : Nat) (x : XF)
  | rmoAtomic (t : Nat) (x : XF)
  | rmoSignal (t : Nat) (x : XF)
  | rmoSend (t : Nat) (x : XF)
  | fence (t : Nat) (f : Enc XF)
  | flowReset (t : Nat) (x : XF)
  | rmoPutReduce (t : Nat) (x : XF)
  | stallRelease (t : Nat)
  | atomicResult (t : Nat)
  | trapEntry (t : Nat)
  | seqWatchdog (t : Nat)
  | start (t : Nat)
  | stop (t : Nat)
  | tileTimerLoRead (t : Nat)
  | registerWrite (r : RegRef) (v : BitVec 32)
  | matchToken (t : Nat) (src : TokSrc)
  | actionFire (t : Nat)
  | entryRetire (t : Nat) (e : Nat)
  | steerToken (t : Nat) (src : TokSrc)
  | steerTimeout (t : Nat) (k : Nat)
  | completionTokenEnter (t : Nat)
  | courseChange (c : CourseReq)
  | courseCommand (t : Nat)
  | drainReport (t : Nat)
  | drainEnd (n : Nat)
  | drainWindowExpiry (n : Nat)
  | matrixFetch (t : Nat)
  | matrixIssue (t : Nat)
  | matrixBLatched (t : Nat)
  | matrixComplete (t : Nat)
  | gateValueCommand (t : Nat) (l : Nat)
  | gateWindow (t : Nat)
  | vectorFetch (t : Nat)
  | vectorIssue (t : Nat)
  | vectorComplete (t : Nat)
  | bankPowerDown (t : Nat) (banks : BitVec 8)
  | bankPowerUp (t : Nat) (banks : BitVec 8)
  | bankClearDone (t : Nat)
  | bankPowerRetry (n : Nat)
  | routerForward (t : Nat) (port vc : Nat)
  | routerArbitration (t : Nat) (port : Nat) (withdrawn : Bool)
  | combineSlotTimeout (t : Nat) (port : Nat)
  | linkRetry (t : Nat) (d : Dir)
  | idleCheck (t : Nat) (d : Dir) (ok : Bool)
  | routerConfigWrite (t : Nat) (c : RouterCfg)
  | routeChange (marks : List (Nat × BitVec 4)) (tables : List (Nat × List DetourEntry))
  | routeTablesAcked
  | putArrive (at_ : Place) (p : Packet)
  | getArrive (at_ : Place) (p : Packet)
  | atomicArrive (at_ : Place) (p : Packet)
  | signalArrive (at_ : Place) (p : Packet)
  | sendArrive (t : Nat) (p : Packet)
  | creditReqArrive (t : Nat) (p : Packet)
  | creditRetArrive (t : Nat) (p : Packet)
  | creditGrantArrive (t : Nat) (p : Packet)
  | creditRetry (t : Nat) (opid : Nat)
  | creditIdleReturn (t : Nat) (k : Nat)
  | putReduceArrive (t : Nat) (p : Packet)
  | answerArrive (t : Nat) (p : Packet)
  | responseTimeout (t : Nat) (opid : Nat)
  | qfullTimeout (t : Nat) (opid : Nat)
  | spanFirstStart (n : Nat)
  | spanResetCommand (t : Nat)
  | spanResetReport (t : Nat)
  | spanFault (n : Nat) (why : SpanFaultCause)
  | spanWatchdogBoundary (n : Nat)
  | spanWatchdogExpiry (n : Nat)
  | spanRestart (n : Nat)
  | hostSpanReset (v : BitVec 32)
  | hostSpanRestart (v : BitVec 32)
  | hostSpanStart (v : BitVec 32)
  | inputValid (slot : BitVec 8) (feed : BitVec 4)
  | mgmtRailsTimeout
  | romEntry
  | imageVerify (k : Side)
  | flashReadTimeout (k : Side) (sfdp : Bool)
  | electionClose
  | imageAbandon (k : Side)
  | recoveryTimeout
  | rootElection (counts : List (Option Nat))
  | rootQualifyTimeout
  | fieldRailOn (f : Nat)
  | fieldQualify (f : Nat) (clk : Nat)
  | fieldQualifyTimeout (f : Nat)
  | selfTestReport (t : Nat) (logicOk banksOk : Bool)
  | selfTestTimeout (f : Nat)
  | linkMeasureStart
  | linkWindowEnd (errs : List LinkCount) (overfull : List Nat) (routes : List (Nat × RouterCfg))
  | bisqueEnd
  | mapTimeout
  | glostOpen (t : Nat) (n d : Nat)
  | glostDigests (t : Nat) (first : Nat) (digests : List (List Byte))
  | glostPart (t : Nat) (seg part : Nat) (bytes : List Byte)
  | glostClose (t : Nat)
  | glostPull (t : Nat) (seg : Nat)
  | pullRequest (t : Nat) (seg : Nat)
  | glostReport (t : Nat)
  | glostTimeout
  | pcieLinkUp (h : Nat) (rate width : Nat)
  | viaductTrainingDone (p : Nat)
  | qualifyWindowEnd (p : Nat) (lanes : BitVec 16)
  | trainingTimeout (p : Nat)
  | keystoneWatchdog
  | keystoneResetTimeout
  | rcvGo (k : Side) (h : Nat) (v : BitVec 32)
  | rcvAbort (k : Side) (v : BitVec 32)
  | rcvCheckDone (k : Side) (img : HostRead)
  | rcvEraseDone (k : Side) (ok : Bool)
  | rcvProgramDone (k : Side) (img : HostRead) (ok : Bool)
  | rcvReadbackDone (k : Side) (ownOk otherOk : Bool)
  | kilnTick
  | telemetryReport (sensor : Nat) (mv ma : Int) (temp : Int)
  | telemetryTimeout (sensor : Nat)
  | klnCapWrite (v : BitVec 32)
  | fstepChange
  | droop (f : Nat)
  | stretchEnd (f : Nat) (low : Bool)
  | coolantLoss (b : Bool)
  | regulatorTrip (g : GroupShown)
  | feedGroupLoss (b : Bool)
  | deepOffEntry (v : BitVec 32)
  | wake (slot : BitVec 8) (feed : BitVec 4)
  | coldReset
  | inputLoss
  | rootLost
  | clockCheck (results : List (Nat × Nat))
  | gateCommand (node : GateNode) (en : Bool)
  | gtimeBeacon
  | beaconArrive (f : Nat) (sent latency : Nat)
  | hostDoorbell (h r : Nat) (v : BitVec 32)
  | ringPoll (r : Nat) (idx : Option Nat)
  | ringEntryFetched (r : Nat) (img : HostRead)
  | ringDeliveryAnswer (r n : Nat) (a : Option Packet)
  | ringHeldResume (r : Nat)
  | ringStop (h r : Nat) (v : BitVec 32)
  | ringResume (h r : Nat) (v : BitVec 32)
  | ringRestart (h r : Nat) (v : BitVec 32)
  | hostWindowOp (h : Nat) (p : Packet)
  | hostCompletion (h k : Nat) (c : HostCompletion)
  | completionRingPut (h : Nat) (p : Packet)
  | completionRingPoll (r : Nat) (idx : Nat)
  | completionRingFull (r : Nat)
  | msixModeration (r : Nat)
  | pcieLinkDown (h : Nat) (why : DownCause)
  | perstAssert (h : Nat)
  | perstDeassert (h : Nat)
  | viaductFrameReceive (p : Nat) (fr : Frame)
  | frameResendLimit (p : Nat)
  | replayRateLimit (p : Nat)
  | viaductPacketReceive (p : Nat) (k : Packet)
  | returnedPacket (p : Nat) (k : Packet)
  | pairChange
  | hello (e j : Nat)
  | helloReceive (p : Nat) (k : Packet)
  | helloAck (p : Nat) (k : Packet)
  | helloTimeout (e j : Nat)
  | timeExchange
  | timeReq (p : Nat) (k : Packet)
  | timeResp (p : Nat) (k : Packet)
  | linkDeadReport (t : Nat) (d : Dir)
  | probeTimeout (t : Nat)
  | statusPublish
  | windowWrite (off : Nat) (v : BitVec 32)
  | perfCtrlWrite (v : BitVec 32)
  | counterCollection (missing : List Nat)
  | queueDepthSample (missing : List Nat)
  | eventReport (e : EventReport)
  | readWindow (off len : Nat) (crossed : Bool)
  | writeWindow (off : Nat) (v : BitVec 32)
  | writeControl (num : Nat) (v : BitVec 32)
  | pldmSensorRead (sensor : Nat)
  | getVersion (tr : Transport)
  | getCapabilities (tr : Transport)
  | negotiateAlgorithms (tr : Transport)
  | getDigests (tr : Transport)
  | getCertificate (tr : Transport) (slot off len : Nat)
  | challenge (tr : Transport) (slot : Nat) (nonce : Nat)
  | getMeasurements (tr : Transport) (idx : Nat) (sign : Option Nat)
  | keyExchange (tr : Transport) (slot : Nat) (req : Nat)
  | finish (tr : Transport) (sid : Nat)
  | heartbeat (tr : Transport) (sid : Nat)
  | keyUpdate (tr : Transport) (sid : Nat)
  | endSession (tr : Transport) (sid : Nat)
  | sessionTimeout (sid : Nat)
  | keyProg (h j sid : Nat) (k : KeySlot) (key : Nat)
  | kSetGo (h j sid : Nat) (k : KeySlot)
  | kSetStop (h j sid : Nat) (k : KeySlot)
  | ideError (h j : Nat)
  | snapshotDue
  | captureComplete (n : Nat)
  | shardCommit
  | parityPiece (p g : Nat) (k : Packet)
  | parityEnd (p g : Nat) (k : Packet)
  | rebuildRequest (p g : Nat) (k : Packet) (img : HostRead)
  | rebuildRefusal (p g : Nat) (k : Packet)
  | rebuildStart (g : Nat)
  | parityDeadline (g : Nat)
  | snapshotDeadline
  | keystoneResetDone
  | resetNRelease (slot : BitVec 8) (feed : BitVec 4)
  | busMasterEnableSet (h : Nat)
  | completionTimeout (h k : Nat)
  | rejectionRecordWritten (ok : Bool)
  | vectorConsumerRelease (t : Nat) (id : Nat)
  | bankPortArbitration (t : Nat) (reqs : List BankReq) (withdrawn : List Nat)
  deriving DecidableEq, Repr

end Sys2Proof
end

