-- ==== Sys2Proof/Machine/State.lean ====
section
/-! DEFINITION. The state of the engine as plain data: the tiles, the fields, the management complex, the host and
Viaduct attachments, and the queue of commands that wait. INVENTORY.md lists every field with its rule and reset value. -/

namespace Sys2Proof.Machine

/-- A table keyed by number, keys strictly rising; what an unlisted key stands for is said where the table is read. -/
abbrev Tab (α : Type) := List (Nat × α)

/-- Memory: the bytes that differ from what an unlisted address reads as, addresses strictly rising. -/
abbrev Mem := List Host.Cell

/-! ## A tile: the sequencer (chapter 02) -/

/-- TILE_STATUS.STATE (Table 02.13). -/
inductive SeqState where
  | stopped | entry | idle | handler | trap | trapped
  deriving DecidableEq, Repr

/-- What the sequencer is stalled in (TILE_STATUS.WAITING, R51). `waitw` holds rd, the address and the mask. -/
inductive Wait where
  | none
  | waite (mask : Nat)
  | waitw (rd : BitVec 4) (addr : Nat) (mask : Word)
  | fence
  | atomic (opid : Nat) (rd : BitVec 4)
  /-- the answer of a blocking ATOMIC has been reported: the old value, none where it failed -/
  | atomicDone (rd : BitVec 4) (old : Option Word)
  | stall (op : Stallable)
  deriving DecidableEq, Repr

/-- A pending asynchronous cause with its TRAPVAL, TRAPINFO and the argument of its own event (R59, R447). -/
structure PendTrap where
  cause : Nat
  val : Word
  info : Nat
  arg : Nat
  deriving DecidableEq, Repr

/-- The sequencer's registers, special registers and trap state (R34, R37, R44, R55 to R61). -/
structure Seq where
  /-- s1 to s15; an unlisted register holds 0 -/
  regs : Tab Word := []
  pc : Word := 0
  z : Bool := false
  n : Bool := false
  c : Bool := false
  v : Bool := false
  state : SeqState := .stopped
  wait : Wait := .none
  /-- TILE_STATUS.ACTION -/
  action : Nat := 0
  /-- TILE_STATUS.ACT_ERR -/
  actErr : Bool := false
  /-- TILE_STATUS.TRAP_LOST -/
  trapLost : Nat := 0
  tag : BitVec 14 := 0
  /-- the match entry whose handler runs; none in the entry routine -/
  running : Option Nat := none
  timerHi : Word := 0
  gtimeHi : Word := 0
  /-- SM0 to SM3 -/
  sm : List Word := [0, 0, 0, 0]
  smTag : BitVec 14 := 0
  smFlg : BitVec 6 := 0
  trapVec : BitVec 13 := 0
  trapCause : Nat := 0
  trapPc : BitVec 13 := 0
  trapVal : Word := 0
  trapInfo : Nat := 0
  /-- is trap entry enabled (R56)? -/
  trapEn : Bool := true
  /-- the state RTT restores (R56) -/
  interrupted : SeqState := .idle
  pend : List PendTrap := []
  flowFails : Nat := 0
  wdog : Nat := 0
  /-- TILE_WDOG.LIMIT -/
  wdogLimit : Nat := 0x01000000
  /-- TILE_CTRL.ENTRY -/
  entry : BitVec 13 := 0
  /-- the address of the DONE that last ended a handler or the entry routine (R57) -/
  lastDone : BitVec 13 := 0
  /-- a STOP that waits for the next instruction boundary (R55) -/
  stopPend : Bool := false
  deriving DecidableEq, Repr

/-! ## A tile: tokens (chapter 03) -/

/-- A token: slot, tag, value, and the queue message it stands for (queue and serial number), if any (R64, R65). -/
structure Token where
  slot : Nat
  tag : BitVec 14
  value : Word
  msg : Option (Nat × Nat) := none
  deriving DecidableEq, Repr

/-- The state of a match entry (R71). A READY entry holds the cycle in which it became READY. -/
inductive EntryState where
  | part
  | ready (at_ : Nat)
  | running
  | draining
  deriving DecidableEq, Repr

/-- A match entry (R71): operand i is `ops[i]`; `desc` and `rops` count the descriptors and remote operations charged to
it and not complete (R75). -/
structure MatchEntry where
  action : Nat
  tag : BitVec 14
  ops : List (Option Token)
  state : EntryState
  desc : Nat := 0
  rops : Nat := 0
  deriving DecidableEq, Repr

/-- A pending steering entry: rule, kind (data or control), token, wait count, and whether its count has stopped (R80,
R81). -/
structure SteerPend where
  rule : Nat
  isData : Bool
  tok : Token
  count : Nat
  stopped : Bool
  deriving DecidableEq, Repr

/-- The match unit, the steering unit and the local token buffer (R69 to R82). -/
structure Df where
  /-- match table, entries 0 to 31 -/
  table : Tab MatchEntry := []
  /-- local token buffer, oldest first, 8 tokens -/
  ltb : List Token := []
  /-- completion tokens of descriptors that wait for a full buffer (R69); the flag is true for the matrix engine -/
  comp : List (Token × Bool × Option Nat) := []
  /-- queue served last by the match unit and by the steering unit (R70) -/
  lastQ : Nat := 7
  lastQs : Nat := 7
  matchFullRaised : Bool := false
  /-- the words of K0 to K3 as START read them (R78) -/
  rules : List (Word × Word) := []
  pend : List SteerPend := []
  /-- steering outputs waiting for the match unit, oldest first, any number of them (DESIGN CHOICE, log 77) -/
  out : List Token := []
  /-- the cycles in which the match unit and the steering unit last took a token (R70) -/
  matchAt : Option Nat := none
  steerAt : Option Nat := none
  /-- TILE_STEER_WAIT.WAIT -/
  steerWait : Nat := 0x10000
  deriving DecidableEq, Repr

/-! ## A tile: engines and scratchpad (chapters 05 to 08) -/

/-- How far a descriptor has come (R120, R126, R142). -/
inductive DescPhase where
  | queued
  | fetched
  | issued
  | latched
  /-- complete, its completion token waiting for the local token buffer (R69) -/
  | delivering
  deriving DecidableEq, Repr

/-- A PUT or SIGNAL of a compressor that has not entered the issue buffer (R163): the consumer, the address, the bytes. -/
structure CompOut where
  cons : Nat
  addr : BitVec 48
  data : List Byte
  signal : Bool
  deriving DecidableEq, Repr

/-- A descriptor in an engine's queue, with what EDESC and the fetch give it (R48, R120, R142). -/
structure Desc where
  off : Nat
  tag : BitVec 14
  entry : Option Nat
  phase : DescPhase := .queued
  words : List Word := []
  prog : List Word := []
  comp : List Word := []
  /-- scoreboard entries it holds, and consumer entries among them with the slot they belong to -/
  entries : List Nat := []
  cons : List (Nat × Nat) := []
  ecc : Bool := false
  /-- program words read as uncorrectable (R145) -/
  badProg : List Nat := []
  /-- remote operations of its compressor not yet answered (R164) -/
  rops : Nat := 0
  /-- PUTs and SIGNALs of its compressor that wait for the issue buffer, in order -/
  out : List CompOut := []
  /-- results of a vector descriptor that have not landed: scoreboard entry, offset, bytes -/
  writes : List (Nat × Nat × List Byte) := []
  /-- summaries, flags and SPX of a vector descriptor whose elements have passed the lanes -/
  sums : List Word := []
  flags : BitVec 6 := 0
  spx : Bool := false
  /-- SPARSE_ events that B's stream has raised for a matrix descriptor (R156) -/
  raised : List Nat := []
  deriving DecidableEq, Repr

/-- The engines of a tile. -/
structure Eng where
  mat : List Desc := []
  vec : List Desc := []
  /-- the B latch: bytes by scratchpad offset, as loaded (R124, R127) -/
  latch : List Host.Cell := []
  /-- offsets of latched bytes that lie in an uncorrectable word -/
  latchBad : List Nat := []
  /-- gate value in force, and the newest one waiting for a window boundary (R128) -/
  gate : Nat := 64
  gateNew : Option Nat := none
  deriving DecidableEq, Repr

/-- A scoreboard entry (Table 08.3). `consumer` is KIND; `owner` 0 matrix, 1 vector, 2 remote responses. -/
structure SbEntry where
  consumer : Bool
  owner : Nat
  lo : Nat
  hi : Nat
  pend : Nat := 0
  deriving DecidableEq, Repr

/-- What a row of a bank holds besides its data: one bit in error, or two, or check bits written by R186. -/
inductive EccMark where
  | single
  | double
  deriving DecidableEq, Repr

/-- The scratchpad, its banks, its arbiter and the scoreboard (chapter 08). -/
structure Pad where
  mem : Mem := []
  ecc : Tab EccMark := []
  on : BitVec 8 := 0xFF
  /-- banks being cleared after a power-up, with the cycle the clearing began (R192) -/
  clearing : Tab Nat := []
  /-- banks of the power-up commands whose replies wait for a clearing, oldest first (R192) -/
  ups : List (BitVec 8) := []
  /-- wait counters of inputs 0 to 6 (R175) -/
  wait : Tab Nat := []
  /-- what the last decision granted, withdrawn grants left out (R174, R176) -/
  granted : List BankReq := []
  /-- rows that the streams of inputs 1 to 3 have still to read, next first (R171) -/
  stream : Tab (List Nat) := []
  /-- the engine served last on input 4 was the vector engine (R173) -/
  lastVec : Bool := false
  sb : Tab SbEntry := []
  /-- entries released, by place, with the cycle: an issue check of that cycle still sees them (R180) -/
  freed : Tab (SbEntry × Nat) := []
  /-- network writes held by a consumer entry, or behind one, oldest first (R182) -/
  held : List Packet := []
  /-- replies to bank power commands, oldest first (Table 08.7) -/
  replies : List Word := []
  deriving DecidableEq, Repr

/-! ## A tile: network interface, queues and router (chapters 09 and 10) -/

/-- The destination of a flow (R220). -/
inductive Dest where
  | tile (eng t : Nat)
  | keystone (sel : Nat)
  | window (w : Nat)
  deriving DecidableEq, Repr

/-- Where an operation of the issue buffer stands. -/
inductive OpState where
  /-- not yet sent -/
  | waiting
  /-- a SEND whose credit request is out (R232) -/
  | requested
  /-- a SEND whose request was answered RETRY at the cycle given (R218) -/
  | retry (at_ : Nat)
  /-- sent at the cycle given -/
  | sent (at_ : Nat)
  /-- answered, not yet reported (R222) -/
  | answered (c : Code)
  deriving DecidableEq, Repr

/-- An operation of the issue buffer (R47, R216). -/
structure IssueOp where
  id : Nat
  kind : RmoKind
  dest : Dest
  vc : Nat
  addr : BitVec 48
  len : Nat
  /-- local offset: source of a PUT, SEND or PUT REDUCE, landing of a GET, operand of a 64-bit ATOMIC -/
  loc : Nat
  sub : BitVec 4
  /-- payload bytes known at issue: operands of a 32-bit ATOMIC, a compressor's PUT -/
  opnd : List Byte := []
  rb : Word
  rid : Nat := 0
  tag : BitVec 14
  entry : Option Nat
  /-- the consumer it serves, where the compressor of the vector descriptor in execution issued it (R164) -/
  comp : Option Nat := none
  /-- has a landing range on the scoreboard, and in which entry it is counted (R179) -/
  lands : Bool := false
  place : Nat := 0
  epoch : Nat
  st : OpState := .waiting
  /-- the old value an ATOMIC's answer brought -/
  old : BitVec 64 := 0
  /-- cycles it has waited for credits (R236) -/
  waited : Nat := 0
  /-- number among all operations of the sender -/
  serial : Nat := 0
  /-- reported FLOW_STOPPED whatever its answer says (R224) -/
  doomed : Bool := false
  /-- of a Pier's bulk mover: the ring and the number of the entry it delivers (R350) -/
  ring : Option (Nat × Nat) := none
  /-- a GET of the router interface's own, for a pull of the Glost pass (R275) -/
  pull : Bool := false
  deriving DecidableEq, Repr

/-- An entry of the credit table (R232). -/
structure Credit where
  eng : Nat
  tile : Nat
  queue : Nat
  gen : Nat
  slots : BitVec 8
  /-- cycle of its last use -/
  used : Nat
  deriving DecidableEq, Repr

/-- The network interface of a tile. -/
structure Ni where
  ops : List IssueOp := []
  /-- operations issued so far -/
  serial : Nat := 0
  credits : List Credit := []
  /-- stopped flows: destination, channel, code (R224, R226) -/
  stopped : List (Dest × Nat × Code) := []
  allStopped : Bool := false
  /-- destinations with a failed PUT, PUT REDUCE or ATOMIC since their FLOW_RESET (R223) -/
  failed : List Dest := []
  /-- TILE_SEND_WAIT.WAIT -/
  sendWait : Nat := 0x1000
  /-- packets handed to the router's local port, oldest first -/
  inj : List Packet := []
  /-- packets the router has delivered, oldest first -/
  inbox : List Packet := []
  deriving DecidableEq, Repr

/-- A message held in a queue (R230). -/
structure QMsg where
  serial : Nat
  slot : Nat
  nslots : Nat
  len : Nat
  tag : BitVec 14
  srcTile : Nat
  srcEng : Nat
  srcKind : Nat
  /-- its token has left the queue's head -/
  taken : Bool := false
  deriving DecidableEq, Repr

/-- A grant of slots to a sender, or a waiting credit request (R232). -/
structure Grant where
  srcTile : Nat
  srcEng : Nat
  srcKind : Nat
  slots : BitVec 8
  deriving DecidableEq, Repr

structure CreditWait where
  srcTile : Nat
  srcEng : Nat
  srcKind : Nat
  span : Nat
  run : Nat
  opid : Nat
  serial : Nat := 0
  deriving DecidableEq, Repr

/-- A queue (R228 to R233). -/
structure Queue where
  isOpen : Bool := false
  comb : Bool := false
  gen : Nat := 0
  arrived : Nat := 0
  serial : Nat := 0
  msgs : List QMsg := []
  grants : List Grant := []
  waits : List CreditWait := []
  deriving DecidableEq, Repr

/-- The combining queue's declaration and round (R234, R235). -/
structure Combine where
  decl0 : Word := 0
  decl1 : Word := 0
  count : Nat := 0
  flags : BitVec 6 := 0
  /-- a completed sum is held; its token's tag, and whether the token has left -/
  held : Bool := false
  tag : BitVec 14 := 0
  taken : Bool := false
  deriving DecidableEq, Repr

/-- A packet in an input buffer, with the output ports it requests once routed (0 local, 1 west, 2 south, 3 east,
4 north; R194). -/
structure Buffered where
  pkt : Packet
  outs : List Nat
  /-- cycle in which its head arrived (R211) -/
  at_ : Nat := 0
  deriving DecidableEq, Repr

/-- A combine slot (R212): the packet held, its input port, the cycle its head arrived, and whether it requests its output:
it has met a match, or has waited 8 cycles. -/
structure CombSlot where
  pkt : Packet
  port : Nat
  at_ : Nat
  ready : Bool := false
  deriving DecidableEq, Repr

/-- The router of a tile (chapter 09). Tables keyed by port, or by 4 × port + channel, or by 20 × output + input. -/
structure Rtr where
  blocked : BitVec 4 := 0
  dead : BitVec 4 := 0
  detour : List DetourEntry := []
  mask : BitVec 4 := 0
  epoch : Nat := 0
  bufs : Tab (List Buffered) := []
  /-- packets sent on each output and not yet acknowledged by the receiver, oldest first -/
  wire : Tab (List Packet) := []
  wait : Tab Nat := []
  /-- outputs left idle for one cycle by a withdrawn grant (R200) -/
  idleOut : List Nat := []
  /-- combine slots by output (R212) -/
  comb : Tab CombSlot := []
  /-- failures in a row, and the cycles of the retries, of each direction's link (R197) -/
  fails : Tab Nat := []
  retries : Tab (List Nat) := []
  /-- cycle of the last flit or check each direction carried (R377) -/
  lastUse : Tab Nat := []
  /-- the crossing of an attached Keystone or Pier toward the mesh (R331), oldest first; and what the block holds behind it -/
  edgeIn : List Packet := []
  edgeWait : List Packet := []
  /-- TILE_ARB_WAIT.LIMIT -/
  arbWait : Nat := 0x10
  deriving DecidableEq, Repr

/-- A pull of a content segment from a candidate tile: its GETs not yet reported, and whether one has failed (R275). -/
structure Pull where
  seg : Nat
  cand : Nat
  left : Nat
  bad : Bool := false
  deriving DecidableEq, Repr

/-- A tile's part in the Glost pass (R271 to R276). -/
structure GlostTile where
  opened : Bool := false
  n : Nat := 0
  d : Nat := 0
  digests : Tab (List Byte) := []
  /-- bytes of the parts received so far, in arrival order, by segment -/
  got : Tab (List Byte) := []
  /-- the directory entries the tile keeps, by segment: 64 bytes each -/
  expect : Tab (List Byte) := []
  verified : List Nat := []
  closedAt : Option Nat := none
  pulls : Nat := 0
  fails : Nat := 0
  /-- pulls made for each segment, and segments asked of the active Keystone -/
  tried : Tab Nat := []
  asked : List Nat := []
  listed : Bool := false
  reported : Bool := false
  /-- the pull under way, and the candidate whose flow is to be reset before the next one (R275) -/
  pull : Option Pull := none
  resetOf : Option Nat := none
  deriving DecidableEq, Repr

/-- One tile. -/
structure Tile where
  seq : Seq := {}
  /-- instruction store, byte addresses 0 to 0x1FFF; an unlisted byte holds 0 -/
  istore : Mem := []
  /-- action table words, by word number 0 to 63 -/
  acts : Tab Word := []
  df : Df := {}
  eng : Eng := {}
  pad : Pad := {}
  ni : Ni := {}
  /-- q0 to q7 -/
  queues : Tab Queue := []
  comb : Combine := {}
  rtr : Rtr := {}
  glost : GlostTile := {}
  course : Nat := 0
  staleRaised : Bool := false
  /-- the reset-held bit (R247) -/
  held : Bool := false
  /-- the fields of Table 21.6, numbered from 0 in table order -/
  cnt : Tab Nat := []
  /-- cycle of the last report of each event code, and the occurrences since (R423) -/
  evts : Tab (Nat × Nat) := []
  deriving DecidableEq, Repr

/-- A tile after reset: what an unlisted tile is. The scratchpad shows the reset value of QSTAT0 to QSTAT7, FREE 8 (Table
10.8). -/
def Tile.reset : Tile := { pad := { mem := (List.range 8).map fun i => (0xFF02 + 4 * i, 8) } }

/-! ## Fields, power and clocks (chapters 12, 14, 15) -/

/-- How far a field has come in the Bisque pass (R262 to R264). -/
inductive FieldStage where
  | unpowered
  | ramping (at_ : Nat)
  | qualified
  | listed (cause : Nat)
  deriving DecidableEq, Repr

/-- How a field's copy of global time runs (R340). -/
inductive Pace where
  | normal
  /-- faster by 1/256 until the error, in 2^-16 ns, is gone -/
  | fast (err : Nat)
  | slow (err : Nat)
  /-- held until master time reaches it -/
  | hold
  deriving DecidableEq, Repr

/-- A reticle field (R14). -/
structure Field where
  stage : FieldStage := .unpowered
  railOff : Bool := true
  tripped : Bool := false
  /-- the neighbour it takes ck_core from (R262, R330) -/
  parent : Option Nat := none
  /-- consecutive telemetry reports within limits since the rail-on command (R263) -/
  good : Nat := 0
  /-- cycle of its fabric reset (R38, R128) -/
  resetAt : Nat := 0
  /-- cycles of the field when link measurement began (R267) -/
  measAt : Nat := 0
  /-- time it qualified -/
  qualAt : Nat := 0
  selfTested : Bool := false
  /-- self-test results received: tile, logic passed, banks passed (R265) -/
  tests : List (Nat × Bool × Bool) := []
  /-- core rail in mV and mA, die temperature in degrees, as last reported -/
  mv : Int := 0
  ma : Int := 0
  temp : Int := 0
  sfail : Bool := false
  /-- consecutive plausible reports of a failed sensor (R301) -/
  plausible : Nat := 0
  reportAt : Nat := 0
  implausibleAt : Option Nat := none
  /-- root cycles of the stretch still to come, two for each stretched cycle; time of the last one (R313, R314) -/
  stretch : Nat := 0
  lastStretch : Option Nat := none
  droops : Nat := 0
  droopRaised : Option Nat := none
  /-- its copy of global time, in 2^-16 ns (R339) -/
  copy : Nat := 0
  pace : Pace := .normal
  deriving DecidableEq, Repr

/-- An input converter (R300). -/
structure Blade where
  mv : Int := 0
  ma : Int := 0
  /-- below 54 V or above 63 V since the time given (R320) -/
  outSince : Option Nat := none
  failed : Bool := false
  plausible : Nat := 0
  reportAt : Nat := 0
  implausibleAt : Option Nat := none
  deriving DecidableEq, Repr

/-- An entry of the Kiln's learned table (R307): per-tile power in µW and the tick it was last seen. -/
structure PhaseEntry where
  phase : Nat
  w : Rat
  seen : Nat
  deriving DecidableEq, Repr

/-- The configuration of the regulator groups (R302): output in mV, and the trip limits in mA, mV and ns. -/
structure RegCfg where
  mv : Nat
  overMa : Nat
  overMaNs : Nat
  overMv : Nat
  overMvNs : Nat
  underMv : Nat
  underMvNs : Nat
  deriving DecidableEq, Repr

/-- The Kiln (chapter 14). -/
structure Kiln where
  cap : Nat := 0
  pIn : Nat := 0
  fstep : Nat := 0
  fpend : Nat := 0
  pend : Bool := false
  pendAt : Nat := 0
  /-- the moment the idle core began to lock at the requested step (R328) -/
  lockAt : Nat := 0
  limiting : Bool := false
  limitRaised : Option Nat := none
  feedA : Bool := false
  feedB : Bool := false
  table : List PhaseEntry := []
  w0 : Rat := 0
  tick : Nat := 0
  excess : Nat := 0
  headroom : Nat := 0
  lastChange : Option Nat := none
  /-- gate value last sent to each span -/
  gates : Tab Nat := []
  /-- what every regulator group has been configured to at power-on (R302) -/
  reg : Option RegCfg := none
  /-- an engine stop under way: the time it began (Table 14.7) -/
  stopAt : Option Nat := none
  deriving DecidableEq, Repr

/-- The clock registers and the global time master (chapter 15). -/
structure Clk where
  switches : Nat := 0
  core : Bool := false
  valid : Bool := false
  edge : Side := .south
  fx : Nat := 0
  locking : Nat := 0
  faults : Nat := 0
  last : Nat := 0
  rounds : Nat := 0
  roundAt : Nat := 0
  /-- clocks whose result was discarded and that are measured again (R337) -/
  again : List Nat := []
  /-- disabled gate nodes that the Keystone commands (R334) -/
  off : List GateNode := []
  /-- master global time in ns (R339) -/
  master : Nat := 0
  running : Bool := false
  /-- time since the last step of the master, in 2^-24 of 1/315 ns -/
  acc : Nat := 0
  /-- ns of real time for which the master still stands (R340, R373) -/
  hold : Nat := 0
  /-- rate trim in units of 2^-24 (R373) -/
  trim : Int := 0
  /-- the beacon last broadcast, with its time (R340) -/
  beacon : Option Nat := none
  deriving DecidableEq, Repr

/-! ## The management complex (chapters 12, 13, 18, 20) -/

/-- KST_STATE.STATE (Table 12.1). -/
inductive EngState where
  | off | rom | bisque | glost | ready | degraded | safe | halted | deepOff
  deriving DecidableEq, Repr

/-- The supply of the management rails (R256, R257, R439). -/
inductive Rails where
  | off
  | on
  | ramping (at_ : Nat) (cycled : Bool)
  | dead
  deriving DecidableEq, Repr

/-- A phase of the recovery registers (Table 13.6). -/
inductive RcvPhase where
  | idle | checking | erasing | programming | readback | done | failed
  deriving DecidableEq, Repr

/-- The recovery registers of one edge (Table 13.6) and what a replacement keeps (R295). -/
structure Rcv where
  addr : BitVec 64 := 0
  len : Nat := 0
  phase : RcvPhase := .idle
  cause : Nat := 0
  progress : Nat := 0
  port : Nat := 0
  /-- time at which the phase began -/
  since : Nat := 0
  digest : Nat := 0
  secver : Nat := 0
  deriving DecidableEq, Repr

/-- The frequency counter of a Keystone (R337): reference and target by their codes in Table 15.5, the window in reference
cycles, the result, and whether it saturated. -/
structure FreqCounter where
  ref : Nat := 0
  target : Nat := 0
  window : Nat := 0
  result : BitVec 32 := 0
  saturated : Bool := false
  deriving DecidableEq, Repr

/-- One Keystone with its flash device. -/
structure Keystone where
  verdict : Nat := 0
  cause : Nat := 0
  sect : Nat := 0
  secver : Nat := 0
  /-- the flash device: bytes that are not 0xFF (R283) -/
  flash : Mem := []
  present : Bool := true
  /-- programmed bits of the lock area, and whether it can be read (R411, R412) -/
  lock : BitVec 256 := 0
  lockOk : Bool := true
  lockVer : Option Nat := none
  /-- retries of the flash command under way, and the time of the last one (R282) -/
  tries : Nat := 0
  triedAt : Nat := 0
  /-- the image it verified, as read (R289) -/
  img : Mem := []
  imgLen : Nat := 0
  sram : Mem := []
  rcv : Rcv := {}
  /-- it has lost the active role since cold reset (R256) -/
  lostRole : Bool := false
  /-- writing a rejection record, since the time given (R292, R293) -/
  rejecting : Option Nat := none
  counter : FreqCounter := {}
  deriving DecidableEq, Repr

/-- The management complex: KST_STATE, KST_BRINGUP, KST_ENGINE_ID and the start-up steps. -/
structure Mgmt where
  st : EngState := .off
  safeCause : Nat := 0
  degrKs : Bool := false
  degrField : Bool := false
  degrVdt : Bool := false
  degrPcie : Bool := false
  degrFloor : Bool := false
  recovery : Bool := false
  peer : Bool := false
  active : Side := .south
  elected : Bool := false
  wave : Nat := 0
  step : Nat := 0
  linkProg : Nat := 0
  /-- KST_BRINGUP.FLD_UP and FLD_LOST once start-up has ended (R280) -/
  upLost : Option (Nat × Nat) := none
  slotValid : Bool := false
  engId : Nat := 0
  feedId : Nat := 0
  rails : Rails := .off
  standby : Bool := false
  /-- times of ROM entry, first successful verification, election, BISQUE entry, step entry and GLOST close -/
  romAt : Nat := 0
  firstOkAt : Option Nat := none
  electedAt : Nat := 0
  bisqueAt : Nat := 0
  /-- cycle in which link measurement began (R267) -/
  windowAt : Option Nat := none
  mapAt : Option Nat := none
  closeAt : Option Nat := none
  glostAt : Nat := 0
  /-- Glost step and port qualification have ended (R256) -/
  glostDone : Bool := false
  /-- segments whose broadcast has begun, and the cycle in which the last one did (R273) -/
  segsSent : List Nat := []
  segAt : Option Nat := none
  /-- the PCI Express ports that had trained by the end of the Glost step (R277) -/
  qualPorts : Option (List Nat) := none
  /-- a Keystone reset under way since the time given; the last one; how many since cold reset (R384) -/
  ksReset : Option Nat := none
  lastKsReset : Option Nat := none
  ksResets : Nat := 0
  /-- pins: RESET_N, COOLANT_OK, WAKE_N as filtered, and feeds (R388, R436) -/
  resetN : Bool := true
  coolantA : Bool := true
  coolantB : Bool := true
  /-- Pier rails are on -/
  pcieRails : Bool := false
  vdtRails : Bool := false
  deriving DecidableEq, Repr

/-- A record of the defect map (Table 01.7). -/
inductive MapRec where
  | field (f phase cause : Nat)
  | tile (t phase cause : Nat)
  | link (t : Nat) (d : Nat) (phase : Nat)
  deriving DecidableEq, Repr

/-- The defect map: factory records and the live map (R29 to R33). -/
structure DefectMap where
  factory : List MapRec := []
  gen : Nat := 0
  recs : List MapRec := []
  usable : Nat := 1179648
  deriving DecidableEq, Repr

/-- A route change in progress (R210, R380): the tables still to be acknowledged. -/
structure RouteChange where
  tables : List (Nat × List DetourEntry)
  acked : List Nat
  epoch : Nat
  /-- pairs that leave (true) or enter service with its third step: engine, pair (R370) -/
  pairs : List (Nat × Nat × Bool) := []
  /-- the live map the change carries out -/
  recs : List MapRec := []
  deriving DecidableEq, Repr

/-- Routes: the route epoch of every network interface (R209, R210), the change in progress, retirements folded into the next
one, dead links reported, probes out. -/
structure Routes where
  epoch : Nat := 0
  change : Option RouteChange := none
  fold : Bool := false
  /-- the map by which attachment tiles are chosen: that of the last route change (R446, R347) -/
  recs : List MapRec := []
  deadLinks : List (Nat × Dir) := []
  probes : Tab Nat := []
  deriving DecidableEq, Repr

/-! ## Spans (chapters 11, 18) -/

/-- A span record of the image (Table 11.1). -/
structure SpanRec where
  x0 : Nat := 0
  y0 : Nat := 0
  x1 : Nat := 0
  y1 : Nat := 0
  flex : Bool := false
  autorst : Bool := false
  arb : Nat := 16
  drainUs : Nat := 100
  wdogMs : Nat := 0
  deriving DecidableEq, Repr

/-- SPN_STATUS0.STATE (Table 11.2). -/
inductive SpanState where
  | unused | loading | running | changing | resetting | held | placeFail
  deriving DecidableEq, Repr

/-- A span operation (R245) and the step of R85 it is in; `hostWait` is a restart that waits for the host's START. -/
inductive SpanOpKind where
  | firstStart
  /-- with what its step 3 writes -/
  | course (loads : List TileLoad)
  | reset (rcause ftile : Nat)
  | autoRestart
  | hostRestart (load : Bool)
  deriving DecidableEq, Repr

structure SpanOp where
  kind : SpanOpKind
  step : Nat
  at_ : Nat
  /-- tiles that have received the step's command; in step 4 those that have received START -/
  acked : List Nat := []
  /-- drain reports: the count each tile reported last; of a span reset, the cycle each tile was reset in -/
  counts : Tab Nat := []
  /-- tiles whose sequencer has reported STOPPED, or whose reset is complete -/
  stopped : List Nat := []
  expired : Bool := false
  /-- a fault ends the operation at the end of its current step (R245) -/
  abort : Bool := false
  hostWait : Bool := false
  /-- the load of step 3 waits for a capture (R396) -/
  capture : Bool := false
  deriving DecidableEq, Repr

/-- A span (chapter 11). -/
structure Span where
  layout : SpanRec := {}
  state : SpanState := .unused
  rcause : Nat := 0
  resets : Nat := 0
  course : Nat := 0
  ftile : Nat := 0
  residual : Nat := 0
  cstep : Nat := 0
  wdog : Nat := 0
  beat : Bool := false
  /-- millisecond of the last boundary counted -/
  boundary : Nat := 0
  op : Option SpanOp := none
  queued : List SpanOpKind := []
  /-- faults that have arisen and not been acted on (R251) -/
  faults : List SpanFaultCause := []
  /-- tiles whose old-course work must reach zero before the next change (R87) -/
  owed : Tab Nat := []
  /-- refused bank power-downs: tile, mask, refusals, time of the last (R305) -/
  bankRetry : List (Nat × BitVec 8 × Nat × Nat) := []
  deriving DecidableEq, Repr

/-! ## Host attachment (chapter 16) -/

/-- A host window (Table 16.4). -/
structure Window where
  base : Nat
  len : Nat
  port : Nat
  rd : Bool
  wr : Bool
  atom : Bool
  noSnoop : Bool
  ring : Bool
  ide : Option Nat
  deriving DecidableEq, Repr

/-- HOST_RING_STAT.STATE (Table 16.7). -/
inductive RingState where
  | unused | running | held | faulted | down | stopped
  deriving DecidableEq, Repr

/-- A delivery of a ring (R350): entry number, destination tile, and the serial numbers, among the Pier's operations, of those
not yet reported OK; for a SEND the time it first asked for credits. -/
structure Delivery where
  n : Nat
  work : Bool
  dest : Nat
  left : List Nat := []
  since : Option Nat := none
  deriving DecidableEq, Repr

/-- A ring (Tables 16.5 to 16.7). -/
structure Ring where
  base : Nat
  ctl : Nat
  kind : Nat
  port : Nat
  log2 : Nat
  esz : Nat
  pollUs : Nat
  queue : Nat
  win : Nat
  target : Nat
  msix : Option Nat
  modUs : Nat
  waitMs : Nat
  state : RingState := .running
  cause : Nat := 0
  /-- n of a work or load ring (entries fetched), k of a completion ring -/
  n : Nat := 0
  /-- completed and refused entries: the engine index -/
  index : Nat := 0
  hostIdx : Nat := 0
  /-- the doorbell has prompted a read of the host index -/
  prompt : Bool := false
  /-- a read of slot n is out -/
  fetching : Bool := false
  /-- the tile of the delivery that failed last -/
  heldOn : Nat := 0
  /-- its flow is to be reset when the ring goes on (R352) -/
  resets : Bool := false
  flight : List Delivery := []
  stopping : Bool := false
  /-- a PUT that waits on a full completion ring, since the time given -/
  full : Option (Packet × Nat) := none
  lastMsix : Option Nat := none
  unannounced : Bool := false
  lastIndexAt : Option Nat := none
  lastPollAt : Nat := 0
  deriving DecidableEq, Repr

/-- What a Pier puts on its PCI Express link. -/
inductive HostReq where
  | write (addr : Nat) (bs : List Byte) (noSnoop : Bool)
  | read (addr len : Nat)
  | atomic (addr : Nat) (sub : BitVec 4) (bs : List Byte)
  | msix (vector : Nat)
  deriving DecidableEq, Repr

/-- HOST_PORT.STATE and the rest of a port (Table 16.12, R356). -/
inductive PortState where
  | down | up | failed
  deriving DecidableEq, Repr

structure PciePort where
  state : PortState := .down
  downs : Nat := 0
  rate : Nat := 0
  width : Nat := 0
  /-- trained since cold reset (R258) -/
  trained : Bool := false
  linkUp : Bool := false
  bme : Bool := false
  perst : Bool := true
  /-- outstanding non-posted space-4 operations, by number -/
  outstanding : Tab Packet := []
  out : List HostReq := []
  /-- the Pier's bulk mover as a sender: its operations in issue order, its credits and its stopped flows (R220, R224, R232);
  of an interface's fields it has no mailboxes -/
  ni : Ni := {}
  /-- MSI-X table words by word number, and pending bits; time of the last vector 0 (R426) -/
  msix : Tab Word := []
  pendBits : BitVec 64 := 0
  lastV0 : Option Nat := none
  v0Due : Bool := false
  /-- the Pier's copy of global time (R339) -/
  copy : Nat := 0
  pace : Pace := .normal
  deriving DecidableEq, Repr

/-! ## Viaduct (chapter 17) -/

inductive VdtState where
  | unused | training | up | degraded | failed
  deriving DecidableEq, Repr

/-- A request that a Pier has injected and whose answer has not been seen: its target tile, who asked, the route epoch and
the cycle (R370). -/
structure Injected where
  target : Nat
  eng : Nat
  tile : Nat
  opid : Nat
  epoch : Nat
  at_ : Nat
  deriving DecidableEq, Repr

/-- A Viaduct port (R359 to R364, R375). -/
structure VdtPort where
  state : VdtState := .unused
  width : Nat := 0
  used : BitVec 16 := 0
  qual : BitVec 16 := 0
  uncorr : Nat := 0
  replays : Nat := 0
  /-- time training began, time its qualification window began -/
  trainAt : Nat := 0
  windowAt : Option Nat := none
  /-- it went down in service and is being retrained once (R363) -/
  retraining : Bool := false
  nextSeq : Nat := 0
  /-- frames kept until acknowledged: FSEQ, packets, resends (R362) -/
  replay : List (Nat × List Packet × Nat) := []
  expect : Nat := 0
  nakSent : Bool := false
  replayTimes : List Nat := []
  replayRaised : Option Nat := none
  /-- requests waiting to be placed in a frame -/
  waiting : List Packet := []
  received : List Packet := []
  /-- flit credits for VC0 to VC2, and flits freed since the last header (R364) -/
  credits : List Nat := [256, 256, 256]
  toReturn : List Nat := [0, 0, 0]
  /-- wait counters of VC0, VC2, VC1 (R364) -/
  wait : Tab Nat := []
  injected : List Injected := []
  /-- frames handed to the link -/
  out : List Frame := []
  /-- the Pier's copy of global time (R339) -/
  copy : Nat := 0
  pace : Pace := .normal
  deriving DecidableEq, Repr

structure Peer where
  pairs : List (Nat × Nat)
  deriving DecidableEq, Repr

/-- The Viaduct part of the engine (R366 to R375). -/
structure Viaduct where
  ports : Tab VdtPort := []
  peers : Tab Peer := []
  present : Bool := false
  selfId : Nat := 0
  master : Nat := 0
  backup : Nat := 0
  cabled : BitVec 32 := 0
  /-- pairs out of service: engine, pair; and the changes waiting to be carried out (R370) -/
  outOf : List (Nat × Nat) := []
  change : List (Nat × Nat × Bool) := []
  /-- HELLOs unanswered: engine, pair, time sent -/
  hellos : List (Nat × Nat × Nat) := []
  /-- time of the last HELLO of each pair, by 4 × engine + pair -/
  helloAt : Tab Nat := []
  offset : Int := 0
  src : Nat := 0
  missed : Nat := 0
  t1 : Option Nat := none
  exchangeAt : Nat := 0
  deriving DecidableEq, Repr

/-! ## Training (chapter 19), Sagger (chapter 20), status (chapter 21) -/

/-- A parity group of this engine, an entry of Table 19.2 (R394, R399 to R403). -/
structure Group where
  id : Nat
  index : Nat
  members : List Nat
  pwin : Nat
  rebuild : Bool
  rsnap : Nat
  refused : Bool := false
  /-- members whose FEED_ID has been compared (R402) -/
  checked : List Nat := []
  /-- the snapshot whose parity is accumulated; 0 for none -/
  pn : Nat := 0
  /-- stripe buffers: by stripe, the bytes that are not 0 -/
  stripes : Tab Mem := []
  /-- pieces received: position, stripe, piece; and stripes written -/
  pieces : List (Nat × Nat × Nat) := []
  wrote : List Nat := []
  /-- LEN of the ends received, by position -/
  ends : Tab Nat := []
  /-- the DOWNS of the window ports when the slot's record was set to MAGIC 0 -/
  opened : Option Nat := none
  /-- a rebuild: begun; under way; the positions asked; requests unanswered with the cycle they left -/
  started : Bool := false
  rebuilding : Bool := false
  asked : List Nat := []
  reqs : List (Nat × Nat) := []
  deriving DecidableEq, Repr

/-- A flow of stripes to another engine: a data member's parity, or what a member serves to a rebuild (R400, R401, R403). -/
structure ParFlow where
  gid : Nat
  index : Nat
  dest : Nat
  /-- the shard, multiplied and padded, and its length before that -/
  data : List Byte
  len : Nat
  /-- packets not answered: operation, stripe, piece, the cycle it left; the end counts as a stripe after the last -/
  out : List (Nat × Nat × Nat × Nat) := []
  ended : Bool := false
  /-- the first stripe that failed, where the flow has stopped -/
  failed : Option Nat := none
  resends : Nat := 0
  /-- the slot it reads, where it serves a rebuild -/
  serve : Option Nat := none
  deriving DecidableEq, Repr

/-- Snapshots and KST_CKPT (R396 to R406). -/
structure Ckpt where
  /-- number of the snapshot in progress; 0 for none; the last one that fell due -/
  n : Nat := 0
  lastDue : Nat := 0
  last : Nat := 0
  late : Nat := 0
  refused : BitVec 3 := 0
  /-- spans that wait for a course change, spans held for their capture, bytes captured by span -/
  waiting : List Nat := []
  capturing : List Nat := []
  data : Tab (List Byte) := []
  /-- at the first capture: master time, GENERATION of the map, DOWNS of the shard windows' ports -/
  firstAt : Nat := 0
  mapGen : Nat := 0
  downs : Nat := 0
  /-- the stripes have been written (R398) -/
  written : Bool := false
  groups : List Group := []
  streams : List ParFlow := []
  /-- number of the next parity operation -/
  nextOp : Nat := 0
  deriving DecidableEq, Repr

/-- An SPDM session (R417). -/
structure Session where
  tr : Transport
  /-- FINISH has completed it -/
  open_ : Bool
  beatAt : Nat
  keys : Nat := 0
  deriving DecidableEq, Repr

/-- What the Sagger last answered (R417 to R419). -/
inductive SpdmResp where
  | none
  | version (v : Nat)
  | capabilities (ct sessions : Nat)
  | algorithms
  | digests (slots : List Nat)
  | certificate (slot : Nat) (bs : Nat)
  | challengeAuth (slot : Nat) (sig : Nat)
  | measurements (vals : List (Nat × Nat)) (sig : Option Nat)
  | keyExchangeRsp (sid : Nat) (sig : Nat)
  | finishRsp (sid : Nat)
  | heartbeatAck (sid : Nat)
  | keyUpdateAck (sid : Nat)
  | endSessionAck (sid : Nat)
  | ideAck (unsupported : Bool)
  | errorNotReady
  | errorUnspecified
  | errorSessionLimit
  | errorInvalid
  deriving DecidableEq, Repr

/-- An IDE stream of a port (R419): the keys it holds, the key set each direction runs on, the session it was keyed in. -/
structure IdeStream where
  keys : List (KeySlot × Nat) := []
  going : List KeySlot := []
  secure : Option Nat := none
  session : Option Nat := none
  deriving DecidableEq, Repr

structure Sagger where
  secverDev : Nat := 0
  lockSplit : Bool := false
  aliasOk : Bool := false
  idOk : Bool := false
  rootOk : Bool := false
  sessions : Tab Session := []
  nextSid : Nat := 0
  streams : Tab IdeStream := []
  /-- measurements fixed at the close of the election, by index (R416) -/
  meas : Tab Nat := []
  resp : SpdmResp := .none
  deriving DecidableEq, Repr

/-- An event record (Table 21.3). -/
structure EvRec where
  code : Nat
  sev : Nat
  src : Nat
  kind : Nat
  gtime : Nat
  tile : Option Nat
  field : Option Nat
  span : Option Nat
  count : Nat
  arg : Nat
  seqNo : Nat
  deriving DecidableEq, Repr

/-- What the sideband last answered: a completion code and the words read. -/
structure PldmResp where
  cc : Nat
  gen : Nat
  words : List Word
  deriving DecidableEq, Repr

/-- A performance collection in effect (R428): the fields of KST_PERF_CTRL and the master time its period began. -/
structure PerfRun where
  mode : Nat
  span : Nat
  period : Nat
  xstep : Nat
  ystep : Nat
  at_ : Nat
  deriving DecidableEq, Repr

structure Status where
  gen : Nat := 0
  copy0 : Tab Word := []
  copy1 : Tab Word := []
  pubAt : Option Nat := none
  /-- the 2,048 records last written, oldest first -/
  log : List EvRec := []
  next : Nat := 0
  /-- records the sideband has read (R438) -/
  read : Nat := 0
  /-- sequence number up to which records have been announced by vector 0 (R426) -/
  announced : Nat := 0
  mode : Nat := 0
  span : Nat := 0
  period : Nat := 0
  xstep : Nat := 0
  ystep : Nat := 0
  err : Bool := false
  /-- the collection in effect, and whether a write waits for the period's end -/
  run : Option PerfRun := none
  newCtrl : Bool := false
  perf : Tab Word := []
  periodNo : Nat := 0
  /-- counter values read last, by tile -/
  prev : Tab (List Nat) := []
  /-- the last 64 QFULL_TIMEOUT events: sender, receiver, time; and pairs already logged (R238) -/
  qfull : List (Nat × Nat × Nat) := []
  deadlocks : List (Nat × Nat × Nat) := []
  pldm : PldmResp := ⟨0, 0, []⟩
  /-- reports on their way to the active Keystone -/
  reports : List EventReport := []
  /-- last report of a code by a unit of the management complex, and the occurrences since (R423) -/
  limits : Tab (Nat × Nat) := []
  /-- HOST_SPAN_RESULT -/
  result : Nat := 0
  cmd : Nat := 0
  cmdSpan : Nat := 0
  deriving DecidableEq, Repr

/-! ## The whole -/

structure State where
  /-- commands that wait, first in first out -/
  pending : List Instr := []
  /-- ck_core cycles delivered since cold reset -/
  now : Nat := 0
  /-- real time since the model's reset, in 1/315 ns: every ck_core period of Table 15.2 is a whole number of them -/
  time : Nat := 0
  /-- the model's own counter of free values -/
  freeCtr : Nat := 0
  tiles : Tab Tile := []
  fields : Tab Field := []
  blades : Tab Blade := []
  mgmt : Mgmt := {}
  south : Keystone := {}
  north : Keystone := {}
  map : DefectMap := {}
  routes : Routes := {}
  spans : Tab Span := []
  kiln : Kiln := {}
  clk : Clk := {}
  windows : Tab Window := []
  rings : Tab Ring := []
  ports : Tab PciePort := []
  vdt : Viaduct := {}
  ckpt : Ckpt := {}
  sgr : Sagger := {}
  status : Status := {}
  deriving DecidableEq, Repr

/-- The engine right after reset: state OFF, every register at the reset value of its table, nothing listed in memory,
no command waiting (R28, R255; INVENTORY.md names the log entry of every value the spec does not give). -/
def State.reset : State := {}

/-- Why the machine stops: raised by an operation that is handed a tile, field, span, port or ring number that no engine
has (R12, R14, R240, R345). Safe: no command of the hardware names such a unit. -/
inductive Fault where
  | noSuchTile
  | noSuchUnit
  deriving DecidableEq, Repr

/-- Why a command has no meaning. `notModelled` is raised by the arms of `exec` that are not modelled yet; `illFormed` by a
meaning handed an operand its row's encoding cannot hold (a defined encoding presented as an undefined one). Both safe. -/
inductive Refusal where
  | notModelled (mnemonic : String)
  | illFormed
  deriving DecidableEq, Repr

/-- The outcome of a command on this state. -/
abbrev Out := Host.Outcome State Fault Refusal

end Sys2Proof.Machine
end

