-- ==== Sys2Proof/Machine/Flags.lean ====
section
/-! DEFINITION. The sequencer's condition flags and conditions (R44), and the arithmetic flags of the engines (R112). -/

namespace Sys2Proof.Machine

/-- The four flags of a comparison a − b (R44): Z, N, C and V. -/
def cmpZ (a b : Word) : Bool := a - b = 0
def cmpN (a b : Word) : Bool := (a - b).msb
def cmpC (a b : Word) : Bool := b.toNat ≤ a.toNat
def cmpV (a b : Word) : Bool := a.msb != b.msb && (a - b).msb != a.msb

/-- CMP and its kin: the flags, and nothing else (R44). -/
def Seq.compare (q : Seq) (a b : Word) : Seq :=
  { q with z := cmpZ a b, n := cmpN a b, c := cmpC a b, v := cmpV a b }

/-- Is the condition code legal (R44)? -/
def condLegal (k : Nat) : Bool := k ≤ 12

/-- The conditions of Table 02.5. -/
def Seq.holds (q : Seq) (k : Nat) : Bool :=
  match k with
  | 0 => q.z
  | 1 => !q.z
  | 2 => q.n != q.v
  | 3 => q.n == q.v
  | 4 => !q.c
  | 5 => q.c
  | 6 => q.n
  | 7 => !q.n
  | 8 => !q.z && q.n == q.v
  | 9 => q.z || q.n != q.v
  | 10 => q.c && !q.z
  | 11 => !q.c || q.z
  | 12 => true
  | _ => false

/-- The arithmetic flags of an engine operation in the order of Table 04.5: bit 0 NV, 1 OF, 2 UF, 3 NX, 4 DZ, 5 SCL. -/
abbrev AFlags := BitVec 6
def fNV : AFlags := 1
def fOF : AFlags := 2
def fUF : AFlags := 4
def fNX : AFlags := 8
def fDZ : AFlags := 16
def fSCL : AFlags := 32

end Sys2Proof.Machine
end

