-- ==== Sys2Proof/Config.lean ====
section
/-! DEFINITION. What an implementation fixes and the manual leaves open: free values without a body, and the floor plan
of the engine. Nothing can be proved about a free value, so a claim holds whatever it is. -/

namespace Sys2Proof.Config

/-- A word the manual leaves unspecified (R225, R389), by the model's counter. Log 9. -/
opaque freeWord : Nat → Word

/-- Is a beat of the engine (0 matrix, 1 vector) of the tile ready in the cycle? The pace of beats inside a descriptor is
left out. Log 10. -/
opaque beatReady : Nat → Nat → Nat → Bool

/-- Which of several equal candidates the hardware takes where the manual does not say, by the model's counter. Log 9. -/
opaque freePick : Nat → Nat

/-- By how many units in the last place a finite result differs from the nearest-even one, where the manual promises a
bound only (R109 to R112): by operation and operands. It is used where the result lies within the bound; log 6. -/
opaque finite : Nat → List Nat → Int

/-- Is the value computed for a transcendental micro-op inexact (NX), by micro-op and operand (R109)? Log 7. -/
opaque inexact : Nat → Word → Bool

/-- SHA-384 of a byte string, as a number (R285, R407); log 8. -/
opaque sha384 : List Byte → Nat

/-- The digest of the root public key in the Sagger's mask ROM (R407); log 8. -/
opaque rootDigest : Nat

/-- Is an uncompressed P-384 public key a point on the curve, not at infinity (R409)? Log 8. -/
opaque onCurve : List Byte → Bool

/-- Does the ECDSA P-384 signature, r then s, verify over the digest under the public key (R409)? Log 8. -/
opaque ecdsaOk : List Byte → Nat → List Byte → Bool

/-- The digest of the Sagger's and the Keystones' mask ROM contents (R416); log 8. -/
opaque romDigest : Nat

/-- The identity and attestation values of the Sagger: signatures and certificate bytes (R414, R415, R417); log 8. -/
opaque signature : Nat → List Nat → Nat
opaque certificate : Nat → Nat → Nat → Nat

/-- Does the start-up content of the identity SRAM yield the identity key at the n-th cold reset (R414)? Log 8. -/
opaque identity : Nat → Bool

/-- Does the SRAM copy of the firmware section still match its digest (R384)? By Keystone reset number. Log 8. -/
opaque firmwareOk : Nat → Bool

/-- The rate trim the firmware chooses from an offset and the trim in force (R373), before its bound; log 19. -/
opaque trim : Int → Int → Int

/-- Expected counts of the clock checks whose rate the manual does not give as a number (Table 15.5): of a flash clock, and
of a PCI Express port clock by the trained rate; log 21. -/
opaque nvmCount : Nat → Nat
opaque pcieCount : Nat → Nat

/-- Does the flash device of a Keystone (0 south, 1 north) offer 8D-8D-8D (R282)? Log 21. -/
opaque octal : Nat → Bool

/-- Real time that a phase of a replacement takes as KST_RCV_STATUS.PROGRESS counts it, by PHASE and LEN (R294); log 65. -/
opaque phaseTime : Nat → Nat → Nat

/-- Columns and rows of the mesh (R12). -/
def cols : Nat := 1024
def rows : Nat := 1152

/-- Tiles of the mesh (Table 00.2). -/
def nTiles : Nat := 1179648

/-- Fields of the engine (R14). -/
def nFields : Nat := 48

/-- The usable-tile floor of the TWR-116 (R3, Table 00.1; R1). -/
def floor : Nat := 1160000

/-- ck_core period of each F-step in units of 1/315 ns (Table 15.2): 0.8, 8/9, 1, 8/7, 4/3, 1.6, 2 and 4 ns. -/
def period (f : Nat) : Nat := [252, 280, 315, 360, 420, 504, 630, 1260].getD f 252

/-- The same period in 2^-16 ns, as a field's time copy holds it (R339). -/
def period16 (f : Nat) : Nat := period f * 65536 / 315

/-- Frequency of each F-step in MHz (Table 15.2). -/
def freqMHz (f : Nat) : Nat := [1250, 1125, 1000, 875, 750, 625, 500, 250].getD f 1250

/-- Real time in units of 1/315 ns. -/
def ns (n : Nat) : Nat := 315 * n
def us (n : Nat) : Nat := 315000 * n
def ms (n : Nat) : Nat := 315000000 * n
def sec (n : Nat) : Nat := 315000000000 * n

end Sys2Proof.Config
end

