-- ==== Sys2Proof/Machine/Ops.lean ====
section
/-! DEFINITION. The named operations over the state that every family shares: tables and memory, tiles, the floor plan,
counters and events, taking a trap and returning from one, and answering a request. -/

namespace Sys2Proof

/-- The order of Table 09.6: 0 east, 1 north, 2 west, 3 south. -/
def Dir.code : Dir → Nat
  | .east => 0 | .north => 1 | .west => 2 | .south => 3

/-- The arbitration port of a direction: 1 west, 2 south, 3 east, 4 north (R194); 0 is local. -/
def Dir.port : Dir → Nat
  | .west => 1 | .south => 2 | .east => 3 | .north => 4

def Dir.opposite : Dir → Dir
  | .east => .west | .west => .east | .north => .south | .south => .north

def Side.other : Side → Side
  | .south => .north
  | .north => .south
def Side.isNorth : Side → Bool
  | .south => false
  | .north => true

/-- A packet that passes only between Piers (R365). -/
def PktOp.pierOnly : PktOp → Bool
  | .hello | .helloAck | .timeReq | .timeResp | .parity => true
  | _ => false

end Sys2Proof

namespace Sys2Proof.Machine

/-! ## Tables and memory -/

/-- The entry at a key, `d` where the key is not listed. -/
def tGet {α : Type} (d : α) : Tab α → Nat → α
  | [], _ => d
  | e :: m, k => if e.1 = k then e.2 else tGet d m k

/-- The entry at a key, if the key is listed. -/
def tGet? {α : Type} : Tab α → Nat → Option α
  | [], _ => none
  | e :: m, k => if e.1 = k then some e.2 else tGet? m k

/-- Set the entry at a key, keeping the keys rising. -/
def tPut {α : Type} : Tab α → Nat → α → Tab α
  | [], k, v => [(k, v)]
  | e :: m, k, v => if k < e.1 then (k, v) :: e :: m else if e.1 = k then (k, v) :: m else e :: tPut m k v

/-- Remove a key. -/
def tDel {α : Type} (m : Tab α) (k : Nat) : Tab α := m.filter fun e => e.1 ≠ k

/-- Are the keys strictly rising, from `lo` on? -/
def tSorted {α : Type} : Nat → Tab α → Bool
  | _, [] => true
  | lo, e :: m => decide (lo ≤ e.1) && tSorted (e.1 + 1) m

/-- The lowest key below `n` that is not listed. -/
def tFree {α : Type} (m : Tab α) (n : Nat) : Option Nat := (List.range n).find? fun k => (tGet? m k).isNone

/-- Set the entry at a key of a table that lists no entry equal to `d`. -/
def tSet {α : Type} [DecidableEq α] (d : α) (m : Tab α) (k : Nat) (v : α) : Tab α :=
  if v = d then tDel m k else tPut m k v

/-- A byte of memory whose unlisted bytes read `d`. -/
def mRead (d : Byte) (m : Mem) (a : Nat) : Byte := tGet d m a

/-- Write a byte, keeping the canonical form: the byte an unlisted address reads as is not listed. -/
def mWrite (d : Byte) (m : Mem) (a : Nat) (b : Byte) : Mem := tSet d m a b

/-- The canonical form of a memory: addresses strictly rising, no entry equal to what an unlisted address reads as. -/
def Mem.wf (d : Byte) (m : Mem) : Bool := tSorted 0 m && m.all fun e => e.2 ≠ d

/-- Consecutive bytes from an address on. -/
def mBytes (d : Byte) (m : Mem) (a n : Nat) : List Byte := (List.range n).map fun i => mRead d m (a + i)

/-- Write consecutive bytes from an address on. -/
def mPutBytes (d : Byte) : Mem → Nat → List Byte → Mem
  | m, _, [] => m
  | m, a, b :: bs => mPutBytes d (mWrite d m a b) (a + 1) bs

/-- A little-endian number from bytes (R91). -/
def leNat : List Byte → Nat
  | [] => 0
  | b :: bs => b.toNat + 256 * leNat bs

/-- The little-endian bytes of a number. -/
def leBytes : Nat → Nat → List Byte
  | 0, _ => []
  | n + 1, v => BitVec.ofNat 8 v :: leBytes n (v / 256)

def leWord (bs : List Byte) : Word := BitVec.ofNat 32 (leNat bs)

/-- Set an element of a list; a position past its end changes nothing. -/
def lSet {α : Type} (l : List α) (i : Nat) (v : α) : List α := l.set i v

/-! ## Tiles and the floor plan -/

def State.tile (s : State) (t : Nat) : Tile := tGet Tile.reset s.tiles t
def State.setTile (s : State) (t : Nat) (x : Tile) : State := { s with tiles := tPut s.tiles t x }
def State.modTile (s : State) (t : Nat) (f : Tile → Tile) : State := s.setTile t (f (s.tile t))
def Tile.modSeq (x : Tile) (f : Seq → Seq) : Tile := { x with seq := f x.seq }
def Tile.modPad (x : Tile) (f : Pad → Pad) : Tile := { x with pad := f x.pad }
def Tile.modNi (x : Tile) (f : Ni → Ni) : Tile := { x with ni := f x.ni }
def Tile.modDf (x : Tile) (f : Df → Df) : Tile := { x with df := f x.df }
def Tile.modEng (x : Tile) (f : Eng → Eng) : Tile := { x with eng := f x.eng }
def Tile.modRtr (x : Tile) (f : Rtr → Rtr) : Tile := { x with rtr := f x.rtr }
def Tile.queue (x : Tile) (i : Nat) : Queue := tGet {} x.queues i
def Tile.setQueue (x : Tile) (i : Nat) (q : Queue) : Tile := { x with queues := tPut x.queues i q }

/-- A command to tile `t`: an effect on a tile the engine has, a fault on a tile it has not (R12). -/
def onTile (t : Nat) (s : State) (f : State → Out) : Out :=
  if t < Config.nTiles then f s else .fault .noSuchTile

def tileX (t : Nat) : Nat := t % Config.cols
def tileY (t : Nat) : Nat := t / Config.cols
def tileId (x y : Nat) : Nat := y * Config.cols + x

/-- The field of a tile (R14). -/
def fieldOf (t : Nat) : Nat := (tileY t / 192) * 8 + tileX t / 128
def fieldX (f : Nat) : Nat := f % 8
def fieldY (f : Nat) : Nat := f / 8

/-- The neighbour of a tile in a direction, if the mesh has one (R12, R194). -/
def neighbour (t : Nat) : Dir → Option Nat
  | .east => if tileX t + 1 < Config.cols then some (t + 1) else none
  | .west => if 0 < tileX t then some (t - 1) else none
  | .north => if tileY t + 1 < Config.rows then some (t + Config.cols) else none
  | .south => if 0 < tileY t then some (t - Config.cols) else none

def allDirs : List Dir := [.west, .south, .east, .north]

def portDir : Nat → Option Dir
  | 1 => some .west | 2 => some .south | 3 => some .east | 4 => some .north | _ => none

/-- A block of the perimeter (Table 01.2): a Keystone, a PCIe Pier or a Viaduct Pier. -/
inductive Block where
  | keystone (k : Side)
  | pcie (h : Nat)
  | vdt (n : Nat)
  deriving DecidableEq, Repr

/-- The attachment tiles of a block, in ascending order along its edge (Table 01.2). -/
def Block.tiles : Block → List Nat
  | .keystone .south => (List.range 8).map fun i => tileId (508 + i) 0
  | .keystone .north => (List.range 8).map fun i => tileId (508 + i) 1151
  | .pcie 0 => (List.range 8).map fun i => tileId (448 + i) 0
  | .pcie 1 => (List.range 8).map fun i => tileId (568 + i) 0
  | .pcie 2 => (List.range 8).map fun i => tileId (448 + i) 1151
  | .pcie _ => (List.range 8).map fun i => tileId (568 + i) 1151
  | .vdt n =>
    (List.range 16).map fun i =>
      if n < 8 then tileId (128 * n + 8 + i) 0
      else if n < 16 then tileId 1023 (144 * (n - 8) + 64 + i)
      else if n < 24 then tileId (128 * (n - 16) + 8 + i) 1151
      else tileId 0 (144 * (n - 24) + 64 + i)

/-- The outward direction of a block's attachment links. -/
def Block.dir : Block → Dir
  | .keystone .south => .south
  | .keystone .north => .north
  | .pcie h => if h < 2 then .south else .north
  | .vdt n => if n < 8 then .south else if n < 16 then .east else if n < 24 then .north else .west

/-- Is the outward port of the tile in the direction attached (R17)? -/
def attached (t : Nat) (d : Dir) : Bool :=
  ([Block.keystone .south, .keystone .north, .pcie 0, .pcie 1, .pcie 2, .pcie 3] ++ (List.range 32).map Block.vdt).any
    fun b => b.dir = d && b.tiles.contains t

/-- Does feed group B supply the field (R27)? -/
def fieldFeedB (f : Nat) : Bool := 4 ≤ fieldX f
/-- Does feed group B supply the Pier (Table 01.2)? -/
def Block.feedB : Block → Bool
  | .keystone _ => false
  | .pcie h => h = 1 || h = 3
  | .vdt n => if n < 8 then 4 ≤ n else if n < 16 then true else if n < 24 then 20 ≤ n else false

/-- Does the list make the tile unusable (R30)? -/
def listedIn (m : List MapRec) (t : Nat) : Bool :=
  m.any fun r => match r with
    | .tile u _ _ => u = t
    | .field f _ _ => f = fieldOf t
    | .link .. => false

def State.usable (s : State) (t : Nat) : Bool := t < Config.nTiles && !listedIn s.map.recs t

/-- Does the map list the outward link of an edge tile, or the tile (R16, DIR 0b10)? -/
def outListed (m : List MapRec) (t : Nat) : Bool :=
  listedIn m t || m.any fun r => match r with | .link u 2 _ => u = t | _ => false

/-- Is the outward link of an edge tile live? -/
def State.outLive (s : State) (t : Nat) (d : Dir) : Bool :=
  t < Config.nTiles && !outListed s.map.recs t && !(s.tile t).rtr.dead.getLsbD d.code

/-- The live attachment tiles of a block (R19). -/
def State.live (s : State) (b : Block) : List Nat := b.tiles.filter fun t => s.outLive t b.dir

/-- The attachment tiles of a block that were live at the last route change: those that traffic chooses from (R446, R347). -/
def State.chosen (s : State) (b : Block) : List Nat := b.tiles.filter fun t => !outListed s.routes.recs t

/-- The attachment tile that a block and tile `t` use for each other: entry (t mod n) of the n live ones (R446, R347). -/
def State.attachFor (s : State) (b : Block) (t : Nat) : Option Nat :=
  let l := s.chosen b
  l[t % l.length]?

/-- The link record of the link of tile `t` in direction `d` (R16, Table 01.7): its south or west end and DIR. -/
def linkOf (t : Nat) (d : Dir) : Nat × Nat :=
  match d, neighbour t d with
  | .east, some _ => (t, 0)
  | .north, some _ => (t, 1)
  | .west, some u => (u, 0)
  | .south, some u => (u, 1)
  | _, none => (t, 2)

/-- Does the map list the link of tile `t` in direction `d`, or the tile beyond it (R205)? -/
def linkListed (m : List MapRec) (t : Nat) (d : Dir) : Bool :=
  let l := linkOf t d
  (match neighbour t d with | some u => listedIn m u | none => false)
    || m.any fun r => match r with | .link a b _ => a = l.1 && b = l.2 | _ => false

/-! ## Spans -/

def SpanRec.holds (r : SpanRec) (t : Nat) : Bool :=
  r.x0 ≤ tileX t && tileX t ≤ r.x1 && r.y0 ≤ tileY t && tileY t ≤ r.y1

/-- The span that holds the tile (R242). -/
def State.spanOf (s : State) (t : Nat) : Option Nat :=
  (s.spans.find? fun e => e.2.state ≠ .unused && e.2.layout.holds t).map (·.1)

/-- SPANID (Table 02.1); 0 for a tile in no span. -/
def State.spanId (s : State) (t : Nat) : Nat := (s.spanOf t).getD 0

def State.span (s : State) (n : Nat) : Span := tGet {} s.spans n
def State.setSpan (s : State) (n : Nat) (x : Span) : State := { s with spans := tPut s.spans n x }
def State.modSpan (s : State) (n : Nat) (f : Span → Span) : State := s.setSpan n (f (s.span n))

/-- The usable tiles of a span's rectangle, in ascending tile ID. -/
def State.spanTiles (s : State) (n : Nat) : List Nat :=
  let r := (s.span n).layout
  (((List.range (r.y1 + 1 - r.y0)).map fun j => (List.range (r.x1 + 1 - r.x0)).map fun i =>
    tileId (r.x0 + i) (r.y0 + j)).flatten).filter s.usable

/-! ## The management complex -/

def State.ks (s : State) : Side → Keystone
  | .south => s.south
  | .north => s.north
def State.setKs (s : State) (k : Side) (x : Keystone) : State :=
  match k with
  | .south => { s with south := x }
  | .north => { s with north := x }
def State.modKs (s : State) (k : Side) (f : Keystone → Keystone) : State := s.setKs k (f (s.ks k))
def State.field (s : State) (f : Nat) : Field := tGet {} s.fields f
def State.setField (s : State) (f : Nat) (x : Field) : State := { s with fields := tPut s.fields f x }
def State.modField (s : State) (f : Nat) (g : Field → Field) : State := s.setField f (g (s.field f))
def State.port (s : State) (h : Nat) : PciePort := tGet {} s.ports h
def State.setPort (s : State) (h : Nat) (x : PciePort) : State := { s with ports := tPut s.ports h x }
def State.modPort (s : State) (h : Nat) (g : PciePort → PciePort) : State := s.setPort h (g (s.port h))
def State.vport (s : State) (p : Nat) : VdtPort := tGet {} s.vdt.ports p
def State.setVport (s : State) (p : Nat) (x : VdtPort) : State :=
  { s with vdt := { s.vdt with ports := tPut s.vdt.ports p x } }
def State.modVport (s : State) (p : Nat) (g : VdtPort → VdtPort) : State := s.setVport p (g (s.vport p))
def State.modMgmt (s : State) (f : Mgmt → Mgmt) : State := { s with mgmt := f s.mgmt }
def State.modKiln (s : State) (f : Kiln → Kiln) : State := { s with kiln := f s.kiln }
def State.modClk (s : State) (f : Clk → Clk) : State := { s with clk := f s.clk }
def State.modStatus (s : State) (f : Status → Status) : State := { s with status := f s.status }
def State.modVdt (s : State) (f : Viaduct → Viaduct) : State := { s with vdt := f s.vdt }
def State.modCkpt (s : State) (f : Ckpt → Ckpt) : State := { s with ckpt := f s.ckpt }
def State.modSgr (s : State) (f : Sagger → Sagger) : State := { s with sgr := f s.sgr }

/-- The engine serves (READY or DEGRADED, R385). -/
def State.inService (s : State) : Bool := s.mgmt.st = .ready || s.mgmt.st = .degraded

/-! ## Events (R423) -/

/-- Send an event report to the active Keystone. -/
def State.report (s : State) (e : EventReport) : State :=
  s.modStatus fun x => { x with reports := x.reports ++ [e] }

/-- A tile raises an event, at most one report of a code in 1,048,576 cycles; occurrences within that time are counted
and travel with the next report (R423). -/
def State.tileEvent (s : State) (t code arg : Nat) : State :=
  let e : EventReport :=
    { code := code, src := 0, tile := some t, field := some (fieldOf t), span := s.spanOf t, arg := arg }
  match tGet? (s.tile t).evts code with
  | none => (s.modTile t fun x => { x with evts := tPut x.evts code (s.now, 0) }).report e
  | some (last, n) =>
    if s.now < last + 1048576 then s.modTile t fun x => { x with evts := tPut x.evts code (last, n + 1) }
    else (s.modTile t fun x => { x with evts := tPut x.evts code (s.now, 0) }).report { e with count := n + 1 }

/-- A Keystone, the Kiln, a Pier, the Sagger or a field controller raises an event. The Keystone logs its own; of another
unit, number `unit` of its kind, one report of a code goes out in 1 ms on ck_mgmt, in 1,048,576 ck_core cycles otherwise,
and the occurrences within that time travel with the next (R423). -/
def State.event (s : State) (code src arg : Nat) (field span tile : Option Nat := none) (unit : Nat := 0) : State :=
  let e : EventReport := { code := code, src := src, field := field, span := span, tile := tile, arg := arg }
  let key := (src * 256 + unit) * 65536 + code
  let mgmt := src = 3 || src = 6
  let now := if mgmt then s.time else s.now
  let gap := if mgmt then Config.ms 1 else 1048576
  if src = 2 then s.report e
  else match tGet? s.status.limits key with
    | none => (s.modStatus fun x => { x with limits := tPut x.limits key (now, 0) }).report e
    | some (last, n) =>
      if now < last + gap then s.modStatus fun x => { x with limits := tPut x.limits key (last, n + 1) }
      else (s.modStatus fun x => { x with limits := tPut x.limits key (now, 0) }).report { e with count := n + 1 }

/-! ## Tile counters (Table 21.6) -/

/-- The 31 counter fields, in table order from CNT0 upward and from high bits to low (R429), with their widths. A QWAIT
field counts units of 1,024 cycles: its cycles are kept, in 10 bits more. -/
def cntWidth (i : Nat) : Nat := if i < 9 then 32 else if i = 17 || i = 18 then 32 else if i < 17 then 18 else 8

/-- Advance a counter field, modulo 2 to its width (R427). -/
def Tile.count (x : Tile) (i n : Nat) : Tile :=
  { x with cnt := tPut x.cnt i ((tGet 0 x.cnt i + n) % 2 ^ cntWidth i) }

/-- Positions of the fields that events advance. -/
def cSeqBusy : Nat := 0
def cSeqWait : Nat := 1
def cMatBusy : Nat := 2
def cMatStall : Nat := 3
def cGateHeld : Nat := 4
def cVecBusy : Nat := 5
def cVecStall : Nat := 6
def cNiWait : Nat := 7
def cSpyHits : Nat := 17
def cSpyMisses : Nat := 18
def cUnbound : Nat := 19
def cStale : Nat := 20
def cEccCor : Nat := 21
def cEccUnc : Nat := 22
def cSpOver : Nat := 23
def cSpRange : Nat := 24
def cSpOrder : Nat := 25
def cDestOff : Nat := 26
def cAnsDisc : Nat := 27
def cRefused : Nat := 28
def cRedMis : Nat := 29
def cRetries : Nat := 30

/-- Position of the field QWAITi of queue `i` (Table 21.6). -/
def cQwait (i : Nat) : Nat := if i < 4 then 12 - i else 20 - i

/-- A counter field as it is read. -/
def Tile.cntField (x : Tile) (i : Nat) : Nat :=
  if 9 ≤ i && i < 17 then tGet 0 x.cnt i / 1024 else tGet 0 x.cnt i

/-- The fields of Table 21.6, by number, packed as in register TILE_CNTk. -/
def cntPack (g : Nat → Nat) (k : Nat) : Word :=
  if k < 9 then BitVec.ofNat 32 (g k)
  else if k = 11 then BitVec.ofNat 32 (g 17)
  else if k = 12 then BitVec.ofNat 32 (g 18)
  else
    let b := if k = 9 then 9 else if k = 10 then 13 else if k = 13 then 19 else if k = 14 then 23 else 27
    BitVec.ofNat 32 (g b * 16777216 + g (b + 1) * 65536 + g (b + 2) * 256 + g (b + 3))

/-- The register TILE_CNTk as a word (Table 21.6). -/
def Tile.cntWord (x : Tile) (k : Nat) : Word := cntPack x.cntField k

/-! ## Scratchpad (chapter 08) -/

/-- The bank of an offset (R168). -/
def bankOf (a : Nat) : Nat := a / 8192 % 8
/-- The row of an offset, over the whole scratchpad. -/
def rowOf (a : Nat) : Nat := a / 8

/-- Is the bank of the offset on and not being cleared (R191, R192)? -/
def Pad.bankOn (p : Pad) (a : Nat) : Bool := p.on.getLsbD (bankOf a) && (tGet? p.clearing (bankOf a)).isNone

/-- The byte a read returns: zero from a bank that is off (R191). An offset beyond 0xFFFF wraps (log 11). -/
def Pad.read (p : Pad) (a : Nat) : Byte := if p.bankOn a then mRead 0 p.mem (a % 65536) else 0
def Pad.bytes (p : Pad) (a n : Nat) : List Byte := (List.range n).map fun i => p.read (a + i)
/-- A little-endian word of the scratchpad (R91). -/
def Pad.word (p : Pad) (a : Nat) : Word := leWord (p.bytes a 4)

/-- The rows that an access of `n` bytes at `a` touches (R171). -/
def rowsOf (a n : Nat) : List Nat :=
  if n = 0 then [] else (List.range (rowOf (a + n - 1) + 1 - rowOf a)).map fun r => (rowOf a + r) % 8192
/-- The uncorrectable rows a read meets, in banks that are on (R185). -/
def Pad.badRows (p : Pad) (a n : Nat) : Nat :=
  ((rowsOf a n).filter fun r => p.bankOn (8 * r) && tGet? p.ecc r = some .double).length
def Pad.bad (p : Pad) (a n : Nat) : Bool := p.badRows a n ≠ 0
/-- The rows with one bit in error it meets. -/
def Pad.singleRows (p : Pad) (a n : Nat) : Nat :=
  ((rowsOf a n).filter fun r => p.bankOn (8 * r) && tGet? p.ecc r = some .single).length
/-- The accesses to a bank that is off (R191). -/
def Pad.offRows (p : Pad) (a n : Nat) : Nat := ((rowsOf a n).filter fun r => !p.bankOn (8 * r)).length
def Pad.anyOff (p : Pad) (a n : Nat) : Bool := p.offRows a n ≠ 0

/-- The rows that some runs touch, in order (R171). -/
def runRows (rs : List (Nat × Nat)) : List Nat := (rs.map fun r => rowsOf r.1 r.2).flatten

/-- The rows that the stream of a bank-port input has still to read (R171). -/
def Pad.setStream (p : Pad) (input : Nat) (rows : List Nat) : Pad := { p with stream := tSet [] p.stream input rows }

/-- The check bits of a row after a write (R185, R186): a full row is stored correct; a part of an uncorrectable row
leaves it uncorrectable. -/
def Pad.eccAfter (p : Pad) (row a n : Nat) : Tab EccMark :=
  if tGet? p.ecc row = some .double && !(a ≤ 8 * row && 8 * row + 8 ≤ a + n) then p.ecc else tDel p.ecc row

/-- Write bytes: those of a bank that is off are dropped (R191). -/
def Pad.putBytes : Pad → Nat → List Byte → Pad
  | p, _, [] => p
  | p, a, b :: bs => Pad.putBytes (if p.bankOn a then { p with mem := mWrite 0 p.mem (a % 65536) b } else p) (a + 1) bs

/-- Set the check bits of the rows that a write of `n` bytes at `a` touches. -/
def Pad.fixEcc (p : Pad) (a n : Nat) : Pad :=
  (rowsOf a n).foldl
    (fun q r => if q.bankOn (8 * r) then { q with ecc := Pad.eccAfter q r a n } else q) p

/-- A write of bytes to the scratchpad with its check bits. -/
def Pad.write (p : Pad) (a : Nat) (bs : List Byte) : Pad := Pad.fixEcc (p.putBytes a bs) a bs.length

/-- The rows of a mark that a write of a part of them reads: one bit in error, corrected, or two, which leave the row
uncorrectable (R185, R186). -/
def Pad.partRows (p : Pad) (mark : EccMark) (a n : Nat) : Nat :=
  ((rowsOf a n).filter fun r =>
    p.bankOn (8 * r) && tGet? p.ecc r = some mark && !(a ≤ 8 * r && 8 * r + 8 ≤ a + n)).length

/-- Count `n` occurrences and raise an event, where there are any. -/
def State.countEvent (s : State) (t field code arg n : Nat) : State :=
  if n = 0 then s else (s.modTile t (·.count field n)).tileEvent t code arg

/-- The tile's accounts of a read: corrected and uncorrectable rows, and accesses to a bank that is off (R185, R191). -/
def State.readEffects (s : State) (t a n : Nat) : State :=
  let p := (s.tile t).pad
  ((s.countEvent t cDestOff 0x0303 a (p.offRows a n)).countEvent t cEccCor 0x0301 a (p.singleRows a n)).countEvent
    t cEccUnc 0x0302 a (p.badRows a n)

/-- A write to a tile's scratchpad with the tile's accounts: a partial write reads its row (R169, R185, R186, R191). -/
def State.padWrite (s : State) (t a : Nat) (bs : List Byte) : State :=
  let p := (s.tile t).pad
  let n := bs.length
  (((s.modTile t fun x => { x with pad := x.pad.write a bs }).countEvent t cDestOff 0x0303 a (p.offRows a n)).countEvent
    t cEccCor 0x0301 a (p.partRows .single a n)).countEvent t cEccUnc 0x0302 a (p.partRows .double a n)

/-! ## Scoreboard (R178, R179) -/

/-- Two ranges overlap (R178). -/
def overlaps (lo hi lo' hi' : Nat) : Bool := lo ≤ hi' && lo' ≤ hi

/-- Does the range meet an incomplete write of another owner's entry? -/
def Pad.writePending (p : Pad) (lo hi : Nat) : Bool :=
  p.sb.any fun e => !e.2.consumer && overlaps lo hi e.2.lo e.2.hi
/-- Does the range meet a consumer entry? -/
def Pad.consumerHit (p : Pad) (lo hi : Nat) : Bool :=
  p.sb.any fun e => e.2.consumer && overlaps lo hi e.2.lo e.2.hi

/-- The scoreboard as an issue check of cycle `now` sees it: an entry released in that cycle still stands (R180). -/
def Pad.seen (p : Pad) (now : Nat) : Tab SbEntry :=
  p.freed.foldl (fun m e => if e.2.2 = now && (tGet? m e.1).isNone then tPut m e.1 e.2.1 else m) p.sb

/-- What an issue check of cycle `now` judges (R180). -/
def Pad.issueView (p : Pad) (now : Nat) : Pad := { p with sb := p.seen now }

/-- Enter an entry in the lowest place that is free in cycle `now`, with that place. -/
def Pad.enterKey (p : Pad) (now : Nat) (e : SbEntry) : Pad × List Nat :=
  match tFree (p.seen now) 16 with
  | some k => ({ p with sb := tPut p.sb k e }, [k])
  | none => (p, [])

/-- Release an entry in cycle `now` (R180). -/
def Pad.drop (p : Pad) (now k : Nat) : Pad :=
  match tGet? p.sb k with
  | some e => { p with sb := tDel p.sb k, freed := tPut p.freed k (e, now) }
  | none => p

/-- Release some entries. -/
def Pad.dropAll (p : Pad) (now : Nat) (ks : List Nat) : Pad := ks.foldl (fun q k => q.drop now k) p

def Pad.freeEntries (p : Pad) : Nat := 16 - p.sb.length

/-- The place of the remote-response entry that a landing range overlaps or touches (R179). -/
def Pad.landPlace (p : Pad) (lo hi : Nat) : Option Nat :=
  (p.sb.find? fun e => e.2.owner = 2 && overlaps lo (hi + 1) e.2.lo (e.2.hi + 1)).map (·.1)

/-- Declare a landing range in cycle `now`: grow an entry or take a free one; with the entry's place (R179). -/
def Pad.declare (p : Pad) (now lo hi : Nat) : Pad × Nat :=
  match p.landPlace lo hi with
  | some k =>
    let e := tGet ⟨false, 2, lo, hi, 0⟩ p.sb k
    ({ p with sb := tPut p.sb k { e with lo := min lo e.lo, hi := max hi e.hi, pend := e.pend + 1 } }, k)
  | none =>
    let r := p.enterKey now ⟨false, 2, lo, hi, 1⟩
    (r.1, r.2.headD 0)

/-- A response counted in entry `k` has landed or failed: PEND falls by 1, and the entry is released at 0 (R179). -/
def Pad.landed (p : Pad) (now k : Nat) : Pad :=
  match tGet? p.sb k with
  | some e => if e.pend ≤ 1 then p.drop now k else { p with sb := tPut p.sb k { e with pend := e.pend - 1 } }
  | none => p

/-! ## Answers (R218, R219) -/

/-- The pair that the peer entry for engine `e` selects for tile `t` (R367): pair t mod NPAIR, or the next in service. -/
def State.pairFor (s : State) (e t : Nat) : Option (Nat × Nat) :=
  match tGet? s.vdt.peers e with
  | none => none
  | some p =>
    let n := p.pairs.length
    let ok := fun i => !s.vdt.outOf.contains (e, i)
    ((List.range n).map fun j => (t + j) % n).find? ok |>.bind fun i => p.pairs[i]?

/-- An answer or credit packet that tile `t` sends: to its DEST, or, for another engine, to the attachment tile of the Pier
that R367 chooses; none where it cannot leave. -/
def State.answerTo (s : State) (t : Nat) (p : Packet) : Option Packet :=
  if p.vc ≠ 1 || p.out || p.deng = s.mgmt.engId then some p
  else match s.pairFor p.deng t with
    | none => none
    | some (lp, rp) => (s.attachFor (.vdt lp) t).map fun u => { p with dest := u, out := true, rdest := p.dest, dport := rp }

/-- Hand packets to the router's local port of a tile, or, those for the tile itself, to its own inbox (log 12), with the
interfaces' route epoch (R209); an answer to another engine that cannot leave is discarded and counted (R367). -/
def State.inject (s : State) (t : Nat) (ps : List Packet) : State :=
  let qs := (ps.filterMap (s.answerTo t)).map fun p => { p with rtEpoch := s.routes.epoch }
  let own := fun p : Packet => p.dest = t && !p.out
  s.modTile t fun x =>
    let y := { x with ni := { x.ni with inj := x.ni.inj ++ qs.filter fun p => !own p, inbox := x.ni.inbox ++ qs.filter own } }
    if qs.length = ps.length then y else y.count cAnsDisc (ps.length - qs.length)

/-- The RESP packet that answers a request (Table 10.2), to one of its senders. -/
def respTo (eng t : Nat) (p : Packet) (dst dstEng : Nat) (c : Code) (old : BitVec 64) : Packet :=
  { op := .resp, dest := dst, vc := 1, out := p.srcKind ≠ 0, opid := p.opid, code := c, srcTile := t, srcEng := eng,
    old := old, deng := dstEng, seng := eng, serial := p.serial }

/-- The answers of tile `t` to a request: one for each contributor of a PUT REDUCE in entry order, with the OPID of its own
operation, one for the sender of any other (R213, R219). -/
def answersTo (eng t : Nat) (p : Packet) (c : Code) (old : BitVec 64) : List Packet :=
  if p.op = .putReduce then
    (List.range p.contribs.length).map fun i =>
      let k := p.contribs.getD i (0, 0)
      let o := p.cops.getD i (p.opid, p.serial)
      respTo eng t { p with srcKind := 0, opid := o.1, serial := o.2 } k.1 k.2 c old
  else [respTo eng t p p.srcTile p.srcEng c old]

/-- A tile answers a request (R213, R219). -/
def State.answer (s : State) (t : Nat) (p : Packet) (c : Code) (old : BitVec 64 := 0) : State :=
  s.inject t (answersTo s.mgmt.engId t p c old)

/-- A block cannot bring a packet over the attachment link of tile `u`: it answers a request itself, to whoever it came from,
and an answer is lost and counted (R197, R379). -/
def State.edgeFail (s : State) (u : Nat) (d : Dir) (p : Packet) : State :=
  let own := fun q : Packet => if q.deng = s.mgmt.engId then some { q with out := true } else s.answerTo u q
  let qs := if p.vc = 1 || p.vc = 3 then [] else (answersTo s.mgmt.engId u p .unreachable 0).filterMap own
  s.modTile u fun x =>
    let y := x.modRtr fun r => { r with wire := tPut r.wire d.port (tGet [] r.wire d.port ++ qs) }
    if p.vc = 1 then y.count cAnsDisc 1 else y

/-! ## Crossings between unrelated clocks (R331) -/

def flitsIn (ps : List Packet) : Nat := (ps.map (·.flits)).sum

/-- The crossings of Table 15.3; beacons are carried on the first. -/
inductive Crossing where
  | keystoneMesh | pierMesh | nvm | fieldChain | stopWire | telemetry
  deriving DecidableEq, Repr

/-- The depth of a crossing's FIFO, where the table gives one: flits, flits, bytes and reports. -/
def Crossing.depth : Crossing → Option Nat
  | .keystoneMesh => some 16 | .pierMesh => some 64 | .nvm => some 64 | .telemetry => some 32
  | .fieldChain | .stopWire => none

/-- Has a crossing a FIFO of its own for each virtual channel? -/
def Crossing.perVc : Crossing → Bool
  | .keystoneMesh => true
  | _ => false

/-- The FIFO of a packet among those of a crossing's direction. -/
def Crossing.lane (c : Crossing) (p : Packet) : Nat := if c.perVc then p.vc else 0

/-- Has the FIFO of a direction, with what it holds, room for the whole packet? -/
def Crossing.fits (c : Crossing) (held : List Packet) (p : Packet) : Bool :=
  match c.depth with
  | some n => flitsIn (held.filter fun q => c.lane q = c.lane p) + p.flits ≤ n
  | none => true

/-- What a block holds back enters its crossing in order, as far as each FIFO has room. -/
def Crossing.fill (c : Crossing) : List Nat → List Packet → List Packet → List Packet × List Packet
  | _, fifo, [] => (fifo, [])
  | full, fifo, p :: l =>
    if !full.contains (c.lane p) && c.fits fifo p then c.fill full (fifo ++ [p]) l
    else
      let r := c.fill (c.lane p :: full) fifo l
      (r.1, p :: r.2)

/-- The crossing of the block that the outward port of an edge tile leads to. -/
def crossingAt (t : Nat) : Crossing :=
  if (Block.keystone .south).tiles.contains t || (Block.keystone .north).tiles.contains t then .keystoneMesh else .pierMesh

def Rtr.feed (r : Rtr) (c : Crossing) : Rtr :=
  let x := c.fill [] r.edgeIn r.edgeWait
  { r with edgeIn := x.1, edgeWait := x.2 }

/-- A block of the perimeter injects a packet at attachment tile `u`, through its crossing, or answers it where that link is
dead (R197). -/
def State.edgeSendAt (s : State) (b : Block) (u : Nat) (p : Packet) : State :=
  if (s.tile u).rtr.dead.getLsbD b.dir.code then s.edgeFail u b.dir p
  else s.modTile u fun x => x.modRtr fun r =>
    ({ r with edgeWait := r.edgeWait ++ [{ p with rtEpoch := s.routes.epoch }] } : Rtr).feed (crossingAt u)

/-- A block injects a packet for tile `t` at the attachment tile it uses for it (R446, R347); with no live attachment link
the packet is lost. -/
def State.edgeSend (s : State) (b : Block) (t : Nat) (p : Packet) : State :=
  match s.attachFor b t with
  | some u => s.edgeSendAt b u p
  | none => s

/-! ## Queues: status words and closing (R228, R233) -/

/-- Slots of a message of `n` bytes (R230). -/
def slotsFor (n : Nat) : Nat := ceilDiv n 32
/-- A run of `n` slots from slot `j`, as a bitmap. -/
def runMask (j n : Nat) : BitVec 8 := BitVec.ofNat 8 ((2 ^ n - 1) * 2 ^ j)
def Queue.used (q : Queue) : BitVec 8 :=
  (q.msgs.foldl (fun b m => b ||| runMask m.slot m.nslots) 0) ||| (q.grants.foldl (fun b g => b ||| g.slots) 0)
def popcount8 (b : BitVec 8) : Nat := ((List.range 8).filter fun i => b.getLsbD i).length

/-- QSTATi (Table 10.8). -/
def Tile.qstat (x : Tile) (i : Nat) : Word :=
  let q := x.queue i
  let v :=
    if q.isOpen && q.comb then
      2 ^ 31 + 2 ^ 30 + x.comb.flags.toNat * 2 ^ 24 + (if x.comb.held then 2 ^ 20 else 0) + q.gen * 2 ^ 14
        + x.comb.count % 16384
    else
      (if q.isOpen then 2 ^ 31 else 0) + q.msgs.length * 2 ^ 20 + (8 - popcount8 q.used) * 2 ^ 16 + q.gen * 2 ^ 14
        + q.arrived % 16384
  BitVec.ofNat 32 v

/-- The value of a queue token: offset and length (Table 03.2). -/
def msgValue (i : Nat) (m : QMsg) : Word := BitVec.ofNat 32 (m.len * 65536 + (0xF700 + 256 * i + 32 * m.slot))

/-- QHEADi (Table 10.9). -/
def Tile.qhead (x : Tile) (i : Nat) : Word :=
  let q := x.queue i
  if q.comb then
    if x.comb.held then BitVec.ofNat 32 (2 ^ 31 + bitsW x.comb.decl1 0 9 * 65536 + 0xFE00) else 0
  else match q.msgs with
    | [] => 0
    | m :: _ => msgValue i m ||| BitVec.ofNat 32 (2 ^ 31)

/-- Write the status words of queue `i` into the scratchpad; for q7 the round's count too (Table 10.7). -/
def Tile.syncQueue (x : Tile) (i : Nat) : Tile :=
  let p := (x.pad.putBytes (0xFF00 + 4 * i) (leBytes 4 (x.qstat i).toNat)).putBytes (0xFF20 + 4 * i)
    (leBytes 4 (x.qhead i).toNat)
  let p := if i = 7 then p.putBytes 0xFF68 (leBytes 4 x.comb.count) else p
  { x with pad := p }

/-- Does a valid steering rule, or a valid action, name the slot (R67, R68)? -/
def ruleNames (r : Word × Word) (slot : Nat) : Bool :=
  bitW r.1 31 && (bitsW r.1 24 4 = slot || bitsW r.1 20 4 = slot)
def Tile.steerFor (x : Tile) (slot : Nat) : Option Nat :=
  (List.range 4).find? fun k => ruleNames (x.df.rules.getD k (0, 0)) slot
/-- Words of action n (Table 02.8). -/
def Tile.act0 (x : Tile) (n : Nat) : Word := tGet 0 x.acts (2 * n)
def Tile.act1 (x : Tile) (n : Nat) : Word := tGet 0 x.acts (2 * n + 1)
def Tile.actValid (x : Tile) (n : Nat) : Bool := bitW (x.act0 n) 31
/-- Operands of action n. -/
def Tile.actNops (x : Tile) (n : Nat) : Nat := bitsW (x.act0 n) 29 2 + 1
/-- Slot of operand i of action n. -/
def Tile.actSlot (x : Tile) (n i : Nat) : Nat := bitsW (x.act1 n) (16 + 4 * i) 4
/-- The action that names a slot, and the operand that names it. -/
def Tile.actionFor (x : Tile) (slot : Nat) : Option (Nat × Nat) :=
  (List.range 32).findSome? fun n =>
    if x.actValid n then
      ((List.range (x.actNops n)).find? fun i => x.actSlot n i = slot).map fun i => (n, i)
    else none
def Tile.bound (x : Tile) (slot : Nat) : Bool := (x.steerFor slot).isSome || (x.actionFor slot).isSome

/-- A packet that returns slots of queue `i` to the sender of a message or grant (R231, R232). -/
def creditRet (eng t i gen : Nat) (dst dstEng dstKind : Nat) (slots : BitVec 8) : Packet :=
  { op := .creditRet, dest := dst, vc := 1, out := dstKind ≠ 0, srcTile := t, srcEng := eng, gen := gen, slots := slots,
    queue := i, deng := dstEng, seng := eng }

/-- A failure that a tile counts as refused: SPAN_RESET and READER_GONE (Table 21.6). -/
def State.refuse (s : State) (t : Nat) (p : Packet) (c : Code) : State :=
  (s.modTile t (·.count cRefused (if p.op = .putReduce then p.contribs.length else 1))).answer t p c

/-- The offset of a remote address, bits `[15:0]` (Table 01.3). -/
def addrOff (a : BitVec 48) : Nat := bitsN a.toNat 0 16
/-- The queue a SEND names (Table 01.3, R215). -/
def sendQueue (a : BitVec 48) : Nat := addrOff a % 16

/-- A message or contribution for queue `i` (R228, R234). -/
def forQueue (i : Nat) (p : Packet) : Bool := (p.op = .send && sendQueue p.addr = i) || (p.op = .putReduce && i = 7)

/-- What a queue has accepted and neither stored nor added: writes held for a consumer entry (R182), and contributions that
wait for a held sum's release (R235). -/
def Tile.accepted (x : Tile) (i : Nat) : List Packet :=
  x.pad.held.filter (forQueue i) ++ (if i = 7 && x.comb.held then x.ni.inbox.filter (·.op = .putReduce) else [])

/-- They leave the interface. -/
def Tile.dropAccepted (x : Tile) (i : Nat) : Tile :=
  (x.modPad fun p => { p with held := p.held.filter fun k => !forQueue i k }).modNi fun n =>
    { n with inbox := if i = 7 && x.comb.held then n.inbox.filter fun k => !(k.op = .putReduce) else n.inbox }

/-- A queue closes (R233): messages discarded and counted, grants lapse, waiting credit requests answered READER_GONE, and
what it has accepted and not stored or added answered with `c`. -/
def State.closeQueue (s : State) (t i : Nat) (c : Code) : State :=
  let x := s.tile t
  let q := x.queue i
  if !q.isOpen then s else
    let e := s.mgmt.engId
    let nReq := q.waits.length
    let lost := if q.comb then (if x.comb.held then 1 else 0) else q.msgs.length
    let x' := { ((x.dropAccepted i).setQueue i { q with isOpen := false, comb := false, msgs := [], grants := [], waits := [] }) with
      comb := if i = 7 then {} else x.comb }
    let x' := (x'.count cRefused (lost + nReq)).syncQueue i
    let s := (s.setTile t x').inject t (q.waits.map fun w =>
      respTo e t { op := .creditReq, opid := w.opid, serial := w.serial, srcKind := w.srcKind } w.srcTile w.srcEng .readerGone 0)
    (x.accepted i).foldl (fun s p => s.refuse t p c) s

def State.closeQueues (s : State) (t : Nat) (c : Code) : State :=
  (List.range 8).foldl (fun s i => s.closeQueue t i c) s

/-! ## Traps (R56 to R59, R447) -/

/-- The tile enters TRAPPED: its queues close (R60, R233). -/
def State.enterTrapped (s : State) (t : Nat) : State :=
  (s.modTile t (·.modSeq fun q => { q with state := .trapped, wait := .none })).closeQueues t .readerGone

/-- The own event of a trap cause (Table 02.9). -/
def trapOwnEvent (cause : Nat) : Option Nat :=
  if cause = 0x07 then some 0x0401 else if cause = 0x08 then some 0x0402 else if cause = 0x0A then some 0x0102
  else if cause = 0x0B then some 0x0104 else if cause = 0x0C then some 0x0302 else if cause = 0x0D then some 0x0105
  else none

/-- Taking a trap with entry enabled (R56): the four records, entry disabled, TILE_TRAP and the cause's own event raised
with `arg`; then the handler at TRAPVEC in state TRAP, or TRAPPED where TRAPVEC is 0. -/
def State.enterTrap (s : State) (t cause : Nat) (pc : BitVec 13) (val : Word) (info arg : Nat) : State :=
  let q := (s.tile t).seq
  let s := s.modTile t (·.modSeq fun q =>
    { q with trapCause := cause, trapPc := pc, trapVal := val, trapInfo := info, trapEn := false, wdog := 0,
             wait := .none })
  let s := s.tileEvent t 0x0101 cause
  let s := match trapOwnEvent cause with
    | some e => s.tileEvent t e arg
    | none => s
  if q.trapVec = 0 then s.enterTrapped t
  else s.modTile t (·.modSeq fun r => { r with state := .trap, interrupted := q.state, pc := q.trapVec.zeroExtend 32 })

/-- A trap that cannot be entered: a double trap (R59). TRAPPC keeps its value, and of events only TILE_TRAP with 0x10 is
raised, not the own event of the cause that was not entered (DESIGN CHOICE, log 76). -/
def State.doubleTrap (s : State) (t cause : Nat) : State :=
  let s := s.modTile t (·.modSeq fun q =>
    { q with trapCause := 0x10, trapVal := BitVec.ofNat 32 cause, trapInfo := 0, wait := .none })
  (s.tileEvent t 0x0101 0x10).enterTrapped t

/-- A synchronous trap at the instruction at PC (R57, R59). -/
def State.syncTrap (s : State) (t cause : Nat) (val : Word) (arg : Nat := 0) : State :=
  let q := (s.tile t).seq
  if q.trapEn then s.enterTrap t cause (q.pc.setWidth 13) val 0 arg else s.doubleTrap t cause

/-- A sequencer read of an uncorrectable row: counted, and ECC_UNCORRECTED raised, by the trap that is entered or, where
none can be, by the bank (R59, R185, R187). -/
def State.loadEcc (s : State) (t a n : Nat) : State :=
  let x := s.tile t
  let s := s.modTile t (·.count cEccUnc (x.pad.badRows a n))
  (if x.seq.trapEn then s else s.tileEvent t 0x0302 a).syncTrap t 0x0C (BitVec.ofNat 32 a) a

/-- An asynchronous cause arrives: held pending, one per cause; a further one is lost and counted (R59, R447). -/
def State.asyncTrap (s : State) (t cause : Nat) (val : Word) (info arg : Nat) : State :=
  s.modTile t (·.modSeq fun q =>
    if q.pend.any (·.cause = cause) then { q with trapLost := satAdd 255 q.trapLost 1 }
    else { q with pend := q.pend ++ [⟨cause, val, info, arg⟩] })

/-- The pending cause taken first: the lowest number (R59). -/
def PendTrap.lowest : List PendTrap → Option PendTrap
  | [] => none
  | p :: ps => match PendTrap.lowest ps with
    | some r => if r.cause < p.cause then some r else some p
    | none => some p

/-- A handler, entry routine or trap handler has ended: its match entry drains, entry of traps is enabled, the watchdog
restarts, and the address of the last DONE is kept (R55, R56, R57, R61). -/
def Tile.endHandler (x : Tile) (state : SeqState) : Tile :=
  let df := match x.seq.running with
    | some k => match tGet? x.df.table k with
      | some e => { x.df with table := tPut x.df.table k { e with state := .draining } }
      | none => x.df
    | none => x.df
  { x with df := df, seq := { x.seq with state := state, running := none, trapEn := true, wait := .none, wdog := 0,
                                         interrupted := .idle } }

/-- STOP at an instruction boundary (R55): the running handler counts as having executed DONE. -/
def Tile.stopNow (x : Tile) : Tile :=
  let x := x.endHandler .stopped
  { x with seq := { x.seq with stopPend := false } }

/-! ## Operations charged to a match entry (R75) -/

def Tile.charge (x : Tile) (e : Option Nat) (f : MatchEntry → MatchEntry) : Tile :=
  match e with
  | none => x
  | some k => match tGet? x.df.table k with
    | none => x
    | some m => { x with df := { x.df with table := tPut x.df.table k (f m) } }

/-- The master global time in ns, as GTIME shows it in a field (R339). -/
def State.gtime (s : State) (f : Nat) : Nat := (s.field f).copy / 65536

/-- The cycle timer of a tile: cycles since its field's fabric reset (R38). -/
def State.timer (s : State) (t : Nat) : Nat := s.now - (s.field (fieldOf t)).resetAt

end Sys2Proof.Machine
end

