-- ==== Sys2Proof/Machine/Formats.lean ====
section
/-! DEFINITION. The sixteen number formats and the arithmetic on them: reading, rounding, conversion, sums, groups of
products, block quantisation (R89 to R112). A finite value is a sign and an exact rational magnitude. -/

namespace Sys2Proof.Machine

/-! ## Layouts (R89, R90, R91, Table 04.1) -/

/-- A floating-point format: exponent width, mantissa width, bias; infinities and NaN as in IEEE 754; a NaN alone. -/
structure FFmt where
  w : Nat
  m : Nat
  bias : Nat
  ieee : Bool
  nan : Bool
  deriving DecidableEq, Repr

/-- F00 to F07. -/
def ffmt : Nat → FFmt
  | 0 => ⟨8, 23, 127, true, true⟩
  | 1 => ⟨5, 10, 15, true, true⟩
  | 2 => ⟨8, 7, 127, true, true⟩
  | 3 => ⟨5, 2, 15, true, true⟩
  | 4 => ⟨4, 3, 7, false, true⟩
  | 5 => ⟨3, 2, 3, false, false⟩
  | 6 => ⟨2, 3, 1, false, false⟩
  | _ => ⟨2, 1, 1, false, false⟩

/-- Bits of an element of each format code (Tables 04.1 to 04.3). -/
def fmtBits (f : Nat) : Nat := [32, 16, 16, 8, 8, 6, 6, 4, 8, 8, 4, 2, 8, 4, 8, 4].getD f 8

/-- Is the format block-scaled? -/
def isBlock (f : Nat) : Bool := 12 ≤ f && f ≤ 15
/-- The format of the elements of a block-scaled format; F14's are fixed point with six fraction bits (R92). -/
def elemFmt (f : Nat) : Nat := if f = 12 then 4 else if f = 13 || f = 15 then 7 else if f = 14 then 8 else f
def is6bit (f : Nat) : Bool := f = 5 || f = 6

/-- Bytes of `n` elements: 6-bit arrays are padded to whole 24-bit words (R91). -/
def elemBytes (f n : Nat) : Nat := if is6bit f then 3 * ceilDiv n 4 else ceilDiv (n * fmtBits f) 8

/-- The byte position of the element `i` of an array and its bit shift within the 4 bytes from there on. -/
def elemPlace (b i : Nat) : Nat × Nat :=
  if b = 6 then (3 * (i / 4), 6 * (i % 4)) else (i * b / 8, i * b % 8)

/-- The code of element `i` of an array of `b`-bit elements that starts with the bytes `rd 0`, `rd 1`, … -/
def elemAt (rd : Nat → Nat) (b i : Nat) : Nat :=
  let p := elemPlace b i
  ((rd p.1 + 256 * rd (p.1 + 1) + 65536 * rd (p.1 + 2) + 16777216 * rd (p.1 + 3)) / 2 ^ p.2) % 2 ^ b

/-- The bytes that hold element `i`: first byte and number of bytes. -/
def elemSpan (b i : Nat) : Nat × Nat :=
  let p := elemPlace b i
  (p.1 + p.2 / 8, (p.2 % 8 + b + 7) / 8)

/-- Pack codes of `b`-bit elements into bytes (R91); 6-bit arrays are padded with zero elements. -/
def packElems (b : Nat) (cs : List Nat) : List Byte :=
  let n := if b = 6 then 4 * ceilDiv cs.length 4 else cs.length
  leBytes (ceilDiv (n * b) 8) (cs.foldr (fun c a => c + 2 ^ b * a) 0)

/-! ## Values -/

/-- A number as the arithmetic sees it: a magnitude 0 is a zero of its sign. -/
inductive Num where
  | nan
  | inf (neg : Bool)
  | fin (neg : Bool) (x : Rat)
  deriving DecidableEq, Repr

/-- 2 to an integer power. -/
def pow2 (e : Int) : Rat := if 0 ≤ e then ((2 ^ e.toNat : Nat) : Rat) else 1 / ((2 ^ (-e).toNat : Nat) : Rat)

/-- floor(log2 x) of a positive rational. -/
def flog2 (x : Rat) : Int :=
  let l : Int := (Nat.log2 x.num.natAbs : Int) - (Nat.log2 x.den : Int)
  if x < pow2 l then l - 1 else l

def Num.isNan : Num → Bool
  | .nan => true
  | _ => false
def Num.isInf : Num → Bool
  | .inf _ => true
  | _ => false
def Num.isZero : Num → Bool
  | .fin _ x => x = 0
  | _ => false
def Num.neg : Num → Bool
  | .nan => false
  | .inf n => n
  | .fin n _ => n
def Num.flip : Num → Num
  | .nan => .nan
  | .inf n => .inf (!n)
  | .fin n x => .fin (!n) x
def Num.mag : Num → Rat
  | .fin _ x => x
  | _ => 0
/-- The signed value of a finite number. -/
def Num.val (v : Num) : Rat := if v.neg then -v.mag else v.mag
def Num.ofRat (x : Rat) : Num := if x < 0 then .fin true (-x) else .fin false x

/-! ## Reading (R89, R90, R93 to R95) -/

/-- The value of a code of F00 to F07: a subnormal is read as a zero of its sign. -/
def decodeF (f : FFmt) (c : Nat) : Num :=
  let man := bitsN c 0 f.m
  let e := bitsN c f.m f.w
  let neg := bitsN c (f.m + f.w) 1 = 1
  let top := 2 ^ f.w - 1
  if e = 0 then .fin neg 0
  else if f.ieee && e = top then (if man = 0 then .inf neg else .nan)
  else if f.nan && e = top && man = 2 ^ f.m - 1 then .nan
  else .fin neg (pow2 ((e : Int) - f.bias) * (1 + (man : Rat) / ((2 ^ f.m : Nat) : Rat)))

/-- The value of a code of an integer format; TERN2's code 0b10 reads as 0 and raises NV (R94). -/
def decodeI (f c : Nat) : Num × AFlags :=
  match f with
  | 8 => (.ofRat (((BitVec.ofNat 8 c).toInt : Int) : Rat), 0)
  | 9 => (.fin false (c : Rat), 0)
  | 10 => (.ofRat (((BitVec.ofNat 4 c).toInt : Int) : Rat), 0)
  | _ => if c = 1 then (.fin false 1, 0) else if c = 3 then (.fin true 1, 0) else if c = 2 then (.fin false 0, fNV)
         else (.fin false 0, 0)

/-- The value of an element code, scales not applied. -/
def decode (f c : Nat) : Num × AFlags :=
  if f = 14 then (.ofRat ((((BitVec.ofNat 8 c).toInt : Int) : Rat) / 64), 0)
  else if elemFmt f < 8 then (decodeF (ffmt (elemFmt f)) c, 0)
  else decodeI f c

/-- The exponent of an E8M0 scale; none for 0xFF, a NaN (R92, R94). -/
def decodeScale (c : Nat) : Option Int := if c = 255 then none else some ((c : Int) - 127)

/-- The value of a binary32 pattern. -/
def num32 (w : Nat) : Num := decodeF (ffmt 0) w

/-! ## Writing -/

/-- The code of a sign and a positive magnitude that the format represents as a normal number. -/
def encodeF (f : FFmt) (neg : Bool) (g : Rat) : Nat :=
  let e := flog2 g
  let man := (((g / pow2 e - 1) * ((2 ^ f.m : Nat) : Rat)).floor).toNat
  (if neg then 2 ^ (f.w + f.m) else 0) + (e + f.bias).toNat * 2 ^ f.m + man

def signBit (f : FFmt) (neg : Bool) : Nat := if neg then 2 ^ (f.w + f.m) else 0
/-- Largest finite code, without its sign (Table 04.4). -/
def maxCode (f : FFmt) : Nat :=
  if f.ieee then (2 ^ f.w - 1) * 2 ^ f.m - 1 else if f.nan then 2 ^ (f.w + f.m) - 2 else 2 ^ (f.w + f.m) - 1
def maxFin (f : FFmt) : Rat := (decodeF f (maxCode f)).mag
def minNormal (f : FFmt) : Rat := pow2 (1 - (f.bias : Int))
/-- The canonical NaN (Table 04.4); +0 where the format has none. -/
def nanCode (f : FFmt) : Nat :=
  if f.ieee then (2 ^ f.w - 1) * 2 ^ f.m + 2 ^ (f.m - 1) else if f.nan then 2 ^ (f.w + f.m) - 1 else 0
/-- The infinity, or the largest finite value in a format without one. -/
def infCode (f : FFmt) (neg : Bool) : Nat :=
  signBit f neg + (if f.ieee then (2 ^ f.w - 1) * 2 ^ f.m else maxCode f)

/-! ## Rounding (R102, R105, R108, R109) -/

/-- Round a non-negative rational to an integer, ties to even. -/
def rneNat (x : Rat) : Nat :=
  let n := x.floor.toNat
  let r := x - (n : Rat)
  if r < 1 / 2 then n else if 1 / 2 < r then n + 1 else if n % 2 = 0 then n else n + 1

/-- The weight of the last of `p` significand bits of a positive rational. -/
def ulp (p : Nat) (x : Rat) : Rat := pow2 (flog2 x - ((p : Int) - 1))

/-- Round a positive rational to `p` significand bits, ties to even, exponent unbounded. -/
def roundP (p : Nat) (x : Rat) : Rat := (rneNat (x / ulp p x) : Rat) * ulp p x

def absDiff (a b : Rat) : Rat := if a ≤ b then b - a else a - b

/-- The rounded magnitude the engine computes for the exact magnitude `x`: `x` where it fits, else a free neighbour of
the nearest-even one within the bound (log 6). -/
def computed (op : Nat) (args : List Nat) (p : Nat) (bound x : Rat) : Rat :=
  let r := roundP p x
  if r = x then r
  else
    let d := r + (Config.finite op args : Rat) * ulp p x
    let c := if 0 < d then roundP p d else 0
    if 0 < c && absDiff c x ≤ bound then c else r

/-- A binary32 result from a sign and a computed magnitude `g` of the exact magnitude `x` (R96, R103, R108). -/
def fit32 (neg : Bool) (g x : Rat) : Nat × AFlags :=
  if pow2 128 ≤ g then (infCode (ffmt 0) neg, fOF)
  else if g < pow2 (-126) then (signBit (ffmt 0) neg, fUF ||| fNX)
  else (encodeF (ffmt 0) neg g, if g = x then 0 else fNX)

def nan32 : Nat := 0x7FC00000

/-- An exact signed result delivered in binary32: `zeroNeg` is the sign of an exact zero (R98). -/
def deliver32 (op : Nat) (args : List Nat) (bound : Rat) (zeroNeg : Bool) (v : Rat) : Nat × AFlags :=
  if v = 0 then (signBit (ffmt 0) zeroNeg, 0)
  else
    let x := if v < 0 then -v else v
    fit32 (v < 0) (computed op args 24 bound x) x

def rabs (v : Rat) : Rat := if v < 0 then -v else v

/-! ## Binary32 arithmetic (R97, R98, R106, R108, Table 04.9) -/

def num2nat (v : Num) : Nat :=
  match v with
  | .nan => nan32
  | .inf n => infCode (ffmt 0) n
  | .fin n x => if x = 0 then signBit (ffmt 0) n else encodeF (ffmt 0) n x

/-- a + b with one rounding; `key` says in which operation, for the free value within the bound: 0.5 ulp for the micro-ops
ADD and SUB (`ulps`, Table 04.9), 2^−24 × |a + b| for an accumulation (Table 04.8, R108, R112). -/
def add32 (key : Nat) (extra : List Nat) (a b : Nat) (ulps : Bool := false) : Nat × AFlags :=
  match num32 a, num32 b with
  | .nan, _ => (nan32, fNV)
  | _, .nan => (nan32, fNV)
  | .inf m, .inf n => if m = n then (infCode (ffmt 0) m, 0) else (nan32, fNV)
  | .inf m, _ => (infCode (ffmt 0) m, 0)
  | _, .inf n => (infCode (ffmt 0) n, 0)
  | .fin m x, .fin n y =>
    let v := (Num.fin m x).val + (Num.fin n y).val
    deliver32 key (a :: b :: extra) (if ulps && v ≠ 0 then ulp 24 (rabs v) / 2 else rabs v * pow2 (-24))
      (m && n && x = 0 && y = 0) v

/-- a × b + c with one rounding, bound 0.5 ulp. -/
def fma32 (key a b : Nat) (c : Option Nat) : Nat × AFlags :=
  let x := num32 a
  let y := num32 b
  let z : Num := match c with | some c => num32 c | none => .fin true 0
  let neg := x.neg != y.neg
  if (x.isInf && y.isZero) || (x.isZero && y.isInf) then (nan32, fNV)
  else if x.isNan || y.isNan || z.isNan then (nan32, fNV)
  else if x.isInf || y.isInf then
    (match z with
      | .inf n => if n = neg then (infCode (ffmt 0) neg, 0) else (nan32, fNV)
      | _ => (infCode (ffmt 0) neg, 0))
  else match z with
    | .inf n => (infCode (ffmt 0) n, 0)
    | z =>
      let p := x.val * y.val
      let v := p + z.val
      let args := [a, b] ++ c.toList
      if v = 0 then (signBit (ffmt 0) (if c.isNone then neg else p = 0 && neg && z.isZero && z.neg), 0)
      else deliver32 key args (ulp 24 (rabs v) / 2) false v

/-- The quotient a / b, bound `n` ulp. -/
def div32 (key n a b : Nat) : Nat × AFlags :=
  let x := num32 a
  let y := num32 b
  let neg := x.neg != y.neg
  if x.isNan || y.isNan then (nan32, fNV)
  else if (x.isZero && y.isZero) || (x.isInf && y.isInf) then (nan32, fNV)
  else if x.isInf then (infCode (ffmt 0) neg, 0)
  else if y.isInf || x.isZero then (signBit (ffmt 0) neg, 0)
  else if y.isZero then (infCode (ffmt 0) neg, fDZ)
  else
    let q := x.mag / y.mag
    fit32 neg (computed key [a, b] 24 ((n : Rat) * ulp 24 q) q) q

/-- The square root of a positive rational to 24 bits, ties to even, and whether it is exact. -/
def sqrtP (y : Rat) : Rat × Bool :=
  let e := flog2 y / 2
  let u := pow2 (e - 23)
  let n := ((y / (u * u)).floor.toNat).sqrt
  let r := (n : Rat) * u
  if r * r = y then (r, true) else ((if (r + u / 2) * (r + u / 2) < y then r + u else r), false)

/-- A root delivered within 1 ulp of the exact one. -/
def root32 (key a : Nat) (y : Rat) : Nat × AFlags :=
  let r := sqrtP y
  if r.2 then fit32 false r.1 r.1
  else
    let u := pow2 (flog2 y / 2 - 23)
    let d := r.1 + (Config.finite key [a] : Rat) * u
    let c := if 0 < d then roundP 24 d else 0
    let g := if u < c && (c - u) * (c - u) ≤ y && y ≤ (c + u) * (c + u) then c else r.1
    ((fit32 false g g).1, (fit32 false g g).2 ||| fNX)

def sqrt32 (key a : Nat) : Nat × AFlags :=
  match num32 a with
  | .nan => (nan32, fNV)
  | .inf n => if n then (nan32, fNV) else (infCode (ffmt 0) false, 0)
  | .fin n x => if x = 0 then (signBit (ffmt 0) n, 0) else if n then (nan32, fNV) else root32 key a x

def rsqrt32 (key a : Nat) : Nat × AFlags :=
  match num32 a with
  | .nan => (nan32, fNV)
  | .inf n => if n then (nan32, fNV) else (0, 0)
  | .fin n x => if x = 0 then (infCode (ffmt 0) n, fDZ) else if n then (nan32, fNV) else root32 key a (1 / x)

/-! ## Maximum, minimum, comparison (R99, R100) -/

/-- Is `a` less than `b`, infinities in their place and −0 below +0; false where either is NaN. -/
def numLt : Num → Num → Bool
  | .nan, _ => false
  | _, .nan => false
  | .inf m, .inf n => m && !n
  | .inf m, _ => m
  | _, .inf n => !n
  | .fin m x, .fin n y =>
    let a := (Num.fin m x).val
    let b := (Num.fin n y).val
    a < b || (a = 0 && b = 0 && m && !n)

/-- Equal as a comparison sees it (R100). -/
def numEq : Num → Num → Bool
  | .inf m, .inf n => m = n
  | .fin m x, .fin n y => (Num.fin m x).val = (Num.fin n y).val
  | _, _ => false

def numLe (a b : Num) : Bool := numEq a b || (numLt a b && !(a.isZero && b.isZero))

/-! ## Conversion (R102, R103, Table 04.6) -/

/-- The range of an integer format. -/
def intRange : Nat → Int × Int
  | 8 => (-128, 127)
  | 9 => (0, 255)
  | 10 => (-8, 7)
  | _ => (-1, 1)

/-- A rational rounded to an integer, ties to even; in `roundInt` another integer within 0.5 is free (log 6). -/
def rneInt (v : Rat) : Int := if v < 0 then -(rneNat (-v) : Int) else (rneNat v : Int)
def roundInt (op : Nat) (args : List Nat) (v : Rat) : Int :=
  let n := rneInt v
  if (n : Rat) = v then n
  else
    let c := n + Config.finite op args
    if absDiff (c : Rat) v ≤ 1 / 2 then c else n

/-- A binary32 value converted to an integer of the range given, rounded by `rnd`: the result and its flags. -/
def toIntRange (rnd : Rat → Int) (lo hi : Int) (w : Nat) : Int × AFlags :=
  match num32 w with
  | .nan => (0, fNV)
  | .inf n => (if n then lo else hi, fNV)
  | .fin n x =>
    let v := (Num.fin n x).val
    let r := rnd v
    if r < lo then (lo, fNV) else if hi < r then (hi, fNV) else (r, if (r : Rat) = v then 0 else fNX)

/-- The code of an integer in an integer format. -/
def intCode (f : Nat) (v : Int) : Nat := (BitVec.ofInt (fmtBits f) v).toNat

/-- A magnitude delivered in a floating format (Table 04.6). `ofOnSat` is false inside a block, where saturation raises
NX alone (R104). -/
def fitF (f : FFmt) (neg ofOnSat : Bool) (g x : Rat) : Nat × AFlags :=
  if maxFin f < g then
    if f.ieee then (infCode f neg, fOF) else (infCode f neg, if ofOnSat then fOF ||| fNX else fNX)
  else if g < minNormal f then (signBit f neg, fUF ||| fNX)
  else (encodeF f neg g, if g = x then 0 else fNX)

/-- A binary32 value converted to a format of F00 to F11 (R103), within the bound of Table 04.8, or within half an ulp of
the target (`half`, R111). -/
def convert (f w : Nat) (half : Bool := false) : Nat × AFlags :=
  if f = 0 then
    (match num32 w with
      | .nan => (nan32, fNV)
      | v => (num2nat v, 0))
  else if f < 8 then
    let ff := ffmt f
    (match num32 w with
      | .nan => (nanCode ff, fNV)
      | .inf n => (infCode ff n, if ff.ieee then 0 else fOF)
      | .fin n x =>
        if x = 0 then (signBit ff n, 0)
        else fitF ff n true (computed (256 + f) [w] (ff.m + 1)
          (if half then ulp (ff.m + 1) x / 2 else x * pow2 (-(ff.m + 1 : Int))) x) x)
  else
    let r := toIntRange (roundInt (256 + f) [w]) (intRange f).1 (intRange f).2 w
    (intCode f r.1, r.2)

/-- An element read exactly into binary32 (R102 step 1): scale exponent and sub-scale as read; a scaled magnitude out of
range becomes an infinity or a zero. -/
def toBinary32 (f c : Nat) (scale : Option Int) (sub : Num) : Nat × AFlags :=
  let d := decode f c
  if !isBlock f then
    (match d.1 with
      | .nan => (nan32, d.2 ||| fNV)
      | v => (num2nat v, d.2))
  else match scale with
    | none => (nan32, fNV)
    | some s =>
      if d.1.isNan || sub.isNan then (nan32, fNV) else
      let neg := d.1.neg != sub.neg
      let x := d.1.mag * sub.mag * pow2 s
      if x = 0 then (signBit (ffmt 0) neg, 0)
      else if pow2 128 ≤ x then (infCode (ffmt 0) neg, fOF ||| fSCL)
      else if x < pow2 (-126) then (signBit (ffmt 0) neg, fUF ||| fNX ||| fSCL)
      else (encodeF (ffmt 0) neg x, 0)

/-! ## Block quantisation (R104) -/

/-- A block of binary32 values written in F12 to F15: element codes, the scale, the sub-scales (F15), flags. -/
structure QBlock where
  codes : List Nat
  scale : Nat
  subs : List Nat
  flags : AFlags
  deriving DecidableEq, Repr

def maxMag (vs : List Num) : Rat := vs.foldl (fun m v => if m < v.mag then v.mag else m) 0

def blockK : Nat → Int
  | 12 => 8
  | 13 => 2
  | 14 => 0
  | _ => 10

/-- One element divided by its scale and converted, saturation without OF. An element of F14 that saturates raises NX
alone, not the NV of Table 04.6's integer column: R104's exception names OF and NX (DESIGN CHOICE, log 78). -/
def quantElem (f w : Nat) (div : Rat) : Nat × AFlags :=
  match num32 w with
  | .fin n x =>
    let y := x / div
    if f = 14 then
      let v := (Num.fin n (y * 64)).val
      let r := roundInt (272 + f) [w] v
      if r < -128 then (intCode 8 (-128), fNX) else if 127 < r then (intCode 8 127, fNX)
      else (intCode 8 r, if (r : Rat) = v then 0 else fNX)
    else
      let ff := ffmt (elemFmt f)
      if y = 0 then (signBit ff n, 0)
      else fitF ff n false (computed (272 + f) [w] (ff.m + 1) (y * pow2 (-(ff.m + 1 : Int))) y) y
  | _ => (0, 0)

/-- The smallest E4M3 value that is not less than `q`: its code; 0x08 below the smallest normal, 0 for 0. -/
def subScaleCode (q : Rat) : Nat :=
  if q = 0 then 0 else if q < pow2 (-6) then 0x08
  else
    match (List.range 0x7F).find? fun c => q ≤ (decodeF (ffmt 4) c).mag with
    | some c => c
    | none => 0x7E

def quantBlock (f : Nat) (ws : List Nat) : QBlock :=
  let vs := ws.map num32
  if vs.any fun v => v.isNan || v.isInf then
    ⟨ws.map fun _ => 0, 0xFF, if f = 15 then [0, 0, 0, 0] else [],
      fNV ||| (if vs.any Num.isInf then fOF else 0)⟩
  else
    let m := maxMag vs
    let zeros := ws.map fun w => (quantElem f w 1).1
    if m = 0 then ⟨zeros, 0, if f = 15 then [0, 0, 0, 0] else [], 0⟩
    else
      let s := max 0 (min 254 (flog2 m - blockK f + 127))
      let base := pow2 (s - 127)
      let subs := (List.range 4).map fun j =>
        subScaleCode (maxMag ((vs.drop (8 * j)).take 8) / (6 * base))
      let es := (List.range ws.length).map fun i =>
        let u := if f = 15 then (decodeF (ffmt 4) (subs.getD (i / 8) 0)).mag else 1
        quantElem f (ws.getD i 0) (if u = 0 then base else base * u)
      ⟨es.map (·.1), s.toNat, if f = 15 then subs else [], es.foldl (fun a e => a ||| e.2) 0⟩

/-! ## The dot-product group (R105 to R107) -/

/-- A product of two operands (R105 steps 1 and 2, R106 rules 1 to 4), with the flags of rules 1 to 3. -/
def product (a b : Num) : Num × AFlags :=
  let neg := a.neg != b.neg
  if a.isNan || b.isNan then (.nan, fNV)
  else if (a.isInf && b.isZero) || (a.isZero && b.isInf) then (.nan, fNV)
  else if a.isInf || b.isInf then (.inf neg, 0)
  else
    let x := a.mag * b.mag
    if pow2 128 ≤ x then (.inf neg, fOF) else (.fin neg x, 0)

/-- A magnitude truncated to a multiple of `u`. -/
def truncTo (u x : Rat) : Rat := ((x / u).floor : Rat) * u

/-- The result G of a group, from its operand pairs and the scale exponents' sum; `scaled` where an operand is
block-scaled. The elements of a block whose scale reads as NaN come as NaN (R94). -/
def group (args : List Nat) (ps : List (Num × Num)) (s : Int) (scaled : Bool) : Nat × AFlags :=
  let qs := ps.map fun p => product p.1 p.2
  let fl := qs.foldl (fun a q => a ||| q.2) (0 : AFlags)
  let vs := qs.map (·.1)
  if vs.any Num.isNan then (nan32, fl)
  else if vs.any (· = .inf true) && vs.any (· = .inf false) then (nan32, fl ||| fNV)
  else if vs.any Num.isInf then (infCode (ffmt 0) (vs.any (· = .inf true)), fl)
  else
    let m := maxMag vs
    if m = 0 then (signBit (ffmt 0) (!vs.isEmpty && vs.all fun v => v.neg), fl)
    else
      let u := pow2 (flog2 m - 55)
      let exact := vs.foldl (fun a v => a + v.val) (0 : Rat)
      let t := vs.foldl (fun a v => a + (Num.fin v.neg (truncTo u v.mag)).val) (0 : Rat)
      if t = 0 then
        (signBit (ffmt 0) (vs.all fun v => v.neg && v.mag = 0), if exact = 0 then fl else fl ||| fNX)
      else
        let x := rabs t
        let bound := rabs exact * pow2 (-24) + (vs.length : Rat) * pow2 (-54) * m
        let r := roundP 24 x
        let d := r + (Config.finite 1 args : Rat) * ulp 24 x
        let c := if 0 < d then roundP 24 d else 0
        let g := if t = exact && r = x then r
          else if 0 < c && rabs ((if t < 0 then -c else c) - exact) ≤ bound then c else r
        let y := g * pow2 s
        let nx := if g = rabs exact && (exact < 0) = (t < 0) then fl else fl ||| fNX
        let neg : Bool := t < 0
        if pow2 128 ≤ y then (infCode (ffmt 0) neg, fl ||| fOF ||| (if scaled then fSCL else 0))
        else if y < pow2 (-126) then (signBit (ffmt 0) neg, nx ||| fUF ||| fNX ||| (if scaled then fSCL else 0))
        else (encodeF (ffmt 0) neg y, nx)

end Sys2Proof.Machine
end

