-- ==== Sys2Proof/Machine/ImageFmt.lean ====
section
/-! DEFINITION. The layout of a configuration image, read from its bytes: header, section table, Glost directory, span
layout, access ranges (R240, R271, R284 to R288). An image is a memory whose unlisted bytes are 0xFF, as in erased flash. -/

namespace Sys2Proof.Machine

/-- An unlisted byte of a flash device or of an image read from one (R283). -/
def erased : Byte := 0xFF

def imgByte (m : Mem) (a : Nat) : Nat := (mRead erased m a).toNat
def imgBytes (m : Mem) (a n : Nat) : List Byte := mBytes erased m a n
/-- A little-endian number of `n` bytes (R284). -/
def imgLe (m : Mem) (a n : Nat) : Nat := leNat (imgBytes m a n)
def imgWord (m : Mem) (a : Nat) : Nat := imgLe m a 4

/-! ## Header and section table (R284 to R286) -/

def hdrMagic (m : Mem) : Nat := imgLe m 0 4
def hdrFmt (m : Mem) : Nat := imgLe m 4 2
def hdrNsect (m : Mem) : Nat := imgLe m 6 2
def hdrLen (m : Mem) : Nat := imgLe m 8 4
def hdrSecver (m : Mem) : Nat := imgLe m 12 4
def hdrId (m : Mem) : Nat := imgLe m 16 8
def hdrChainOff (m : Mem) : Nat := imgLe m 24 4
def hdrChainLen (m : Mem) : Nat := imgLe m 28 4
def hdrSigOff (m : Mem) : Nat := imgLe m 32 4

/-- A section table entry: TYPE, OFFSET, LENGTH and the place of the entry. -/
structure Sect where
  type : Nat
  off : Nat
  len : Nat
  at_ : Nat
  deriving DecidableEq, Repr

def sects (m : Mem) : List Sect :=
  (List.range (min 32 (hdrNsect m))).map fun i =>
    let a := 64 + 64 * i
    ⟨imgByte m a, imgLe m (a + 4) 4, imgLe m (a + 8) 4, a⟩

def sect (m : Mem) (type : Nat) : Option Sect := (sects m).find? (·.type = type)

/-- The LENGTH that Table 13.3 admits for a TYPE. -/
def sectLenOk (type n : Nat) : Bool :=
  match type with
  | 0x01 => 1 ≤ n && n ≤ 2097152
  | 0x02 => 4096 ≤ n && n ≤ 4096 * 4096 && n % 4096 = 0
  | 0x03 => 16 ≤ n && n ≤ 65536 && n % 16 = 0
  | 0x04 | 0x05 | 0x06 => 64 ≤ n && n ≤ 65536
  | 0x07 => 64 ≤ n && n ≤ 4096
  | 0x08 => n = 64
  | 0x09 => 8 ≤ n && n ≤ 512 && n % 8 = 0
  | _ => false

def sectRequired (type : Nat) : Bool := (1 ≤ type && type ≤ 5) || type = 8

def allZero (bs : List Byte) : Bool := bs.all (· = 0)

/-- Two byte ranges [a, a + n) and [b, b + k) share no byte. -/
def apart (a n b k : Nat) : Bool := a + n ≤ b || b + k ≤ a

/-! ## Glost directory (R271) -/

/-- An entry of the Glost directory (Table 12.4). -/
structure DirEntry where
  segno : Nat
  dest : Nat
  loff : Nat
  len : Nat
  x0 : Nat
  y0 : Nat
  x1 : Nat
  y1 : Nat
  reservedOk : Bool
  deriving DecidableEq, Repr

def dirEntry (bs : List Byte) : DirEntry :=
  let w := fun a n => leNat ((bs.drop a).take n)
  { segno := w 0 2, dest := w 2 1 % 4, loff := w 4 2, len := w 6 2 % 4096 + 1,
    x0 := bitsN (w 8 4) 0 10, y0 := bitsN (w 8 4) 10 11, x1 := bitsN (w 12 4) 0 10, y1 := bitsN (w 12 4) 10 11,
    reservedOk := w 2 1 / 4 = 0 && w 3 1 = 0 && w 6 2 / 4096 = 0 && bitsN (w 8 4) 21 11 = 0 && bitsN (w 12 4) 21 11 = 0 }

def DirEntry.holds (e : DirEntry) (t : Nat) : Bool :=
  e.x0 ≤ tileX t && tileX t ≤ e.x1 && e.y0 ≤ tileY t && tileY t ≤ e.y1

/-- D, the smallest count for which 64 × D is at least N − D. -/
def dirCount (n : Nat) : Nat := ceilDiv n 65

/-- N of the image: segments of the Glost section. -/
def glostN (m : Mem) : Nat := match sect m 2 with | some x => x.len / 4096 | none => 0

/-- The 64-byte entry of the content segment that comes `i`-th. -/
def dirRaw (m : Mem) (i : Nat) : List Byte :=
  match sect m 2 with
  | some x => imgBytes m (x.off + 64 * i) 64
  | none => []

/-- The directory: one entry for each content segment. -/
def directory (m : Mem) : List DirEntry :=
  (List.range (glostN m - dirCount (glostN m))).map fun i => dirEntry (dirRaw m i)

/-- Bytes of segment `n` from `off` on. -/
def segBytes (m : Mem) (n off k : Nat) : List Byte :=
  match sect m 2 with
  | some x => imgBytes m (x.off + 4096 * n + off) k
  | none => []

/-- Length of segment `n`: a content segment's by its entry, a directory segment's by the entries it carries (R271). -/
def segLen (m : Mem) (n : Nat) : Nat :=
  let d := dirCount (glostN m)
  if n < d then min 4096 (64 * (glostN m - d - 64 * n))
  else (dirEntry (dirRaw m (n - d))).len

/-! ## Span layout (R240) and access ranges (R287) -/

/-- The i-th span record: its ID and its fields (Table 11.1). -/
def spanRec (m : Mem) (a : Nat) : Nat × SpanRec :=
  let w := fun i => imgWord m (a + 4 * i)
  let d := bitsN (w 3) 0 17
  (bitsN (w 2) 0 12,
   { x0 := bitsN (w 0) 0 10, y0 := bitsN (w 0) 10 11, x1 := bitsN (w 1) 0 10, y1 := bitsN (w 1) 10 11,
     flex := bitsN (w 2) 12 1 = 1, autorst := bitsN (w 2) 13 1 = 1, arb := bitsN (w 2) 14 8,
     drainUs := if d = 0 then 100 else d, wdogMs := bitsN (w 3) 17 15 })

def spanRecs (m : Mem) : List (Nat × SpanRec) :=
  match sect m 3 with
  | some x => (List.range (x.len / 16)).map fun i => spanRec m (x.off + 16 * i)
  | none => []

/-- The reserved fields of the span records are 0. -/
def spanReservedOk (m : Mem) : Bool :=
  match sect m 3 with
  | some x => (List.range (x.len / 16)).all fun i =>
      let w := fun j => imgWord m (x.off + 16 * i + 4 * j)
      bitsN (w 0) 21 11 = 0 && bitsN (w 1) 21 11 = 0 && bitsN (w 2) 22 10 = 0
  | none => true

/-- The access ranges: LO, HI, PERM, and whether the entry's zeros are 0. -/
def ranges (m : Mem) : List (Nat × Nat × Nat × Bool) :=
  match sect m 9 with
  | some x => (List.range (x.len / 8)).map fun i =>
      let a := imgWord m (x.off + 8 * i)
      let b := imgWord m (x.off + 8 * i + 4)
      (bitsN a 0 22, bitsN b 0 22, bitsN a 30 2, bitsN a 22 8 = 0 && bitsN b 22 10 = 0)
  | none => []

/-- The image of the active Keystone, as it was read. -/
def State.image (s : State) : Mem := (s.ks s.mgmt.active).img

/-- The tiles of a span that carry programs (R243): those that a content segment with DEST 1 reaches (log 14). -/
def State.progTiles (s : State) (n : Nat) : List Nat :=
  let r := (s.span n).layout
  let ds := (directory s.image).filter (·.dest = 1)
  (((List.range (r.y1 + 1 - r.y0)).map fun j => (List.range (r.x1 + 1 - r.x0)).map fun i =>
    tileId (r.x0 + i) (r.y0 + j)).flatten).filter fun t => ds.any (·.holds t)

end Sys2Proof.Machine
end

