-- ==== Sys2Proof/Decode.lean ====
section
/-! DEFINITION. The table's rows give no bits, so no word spells a command. The sequencer's own instructions have
encodings (R40 to R45): they are written here as an encoder and a decoder, by which a command agrees with the store. -/

namespace Sys2Proof

/-- The command that a word spells by the bits of spec/opcode_table.json: no row of the table gives bits. -/
def decodeTableWord (_nbits _w : Nat) : Option Instr := none

/-! ## The 32-bit formats (Table 02.2) -/

def encRR (op : BitVec 5) (f : RR) : Word := f.hi ++ f.fn ++ f.rs2 ++ f.rs1 ++ f.rd ++ op ++ 3#2
def encRI (op : BitVec 5) (f : RI) : Word := f.imm ++ f.rs1 ++ f.rd ++ op ++ 3#2
def encSH (op : BitVec 5) (f : SH) : Word := f.hi ++ f.kind ++ f.shamt ++ f.rs1 ++ f.rd ++ op ++ 3#2
def encMF (op : BitVec 5) (f : MF) : Word := f.imm ++ f.w ++ f.z ++ f.rs1 ++ f.rd ++ op ++ 3#2
def encUF (op : BitVec 5) (f : UF) : Word := f.imm ++ f.rd ++ op ++ 3#2
def encBF (op : BitVec 5) (f : BF) : Word := f.imm ++ f.cond ++ op ++ 3#2
def encSF (op : BitVec 5) (f : SF) : Word := f.num ++ f.z ++ f.rs1 ++ f.rd ++ op ++ 3#2
def encXF (kind : BitVec 4) (f : XF) : Word := f.hi ++ f.sub ++ kind ++ f.rb ++ f.ra ++ f.rd ++ 0x11#5 ++ 3#2

def decRR (w : Word) : RR :=
  ⟨w.extractLsb' 7 4, w.extractLsb' 11 4, w.extractLsb' 15 4, w.extractLsb' 19 4, w.extractLsb' 23 9⟩
def decRI (w : Word) : RI := ⟨w.extractLsb' 7 4, w.extractLsb' 11 4, w.extractLsb' 15 17⟩
def decSH (w : Word) : SH :=
  ⟨w.extractLsb' 7 4, w.extractLsb' 11 4, w.extractLsb' 15 5, w.extractLsb' 20 2, w.extractLsb' 22 10⟩
def decMF (w : Word) : MF :=
  ⟨w.extractLsb' 7 4, w.extractLsb' 11 4, w.extractLsb' 15 2, w.extractLsb' 17 2, w.extractLsb' 19 13⟩
def decUF (w : Word) : UF := ⟨w.extractLsb' 7 4, w.extractLsb' 11 21⟩
def decBF (w : Word) : BF := ⟨w.extractLsb' 7 4, w.extractLsb' 11 21⟩
def decSF (w : Word) : SF := ⟨w.extractLsb' 7 4, w.extractLsb' 11 4, w.extractLsb' 15 4, w.extractLsb' 19 13⟩
def decXF (w : Word) : XF :=
  ⟨w.extractLsb' 7 4, w.extractLsb' 11 4, w.extractLsb' 15 4, w.extractLsb' 23 4, w.extractLsb' 27 5⟩

/-! ## The 16-bit format (R45) -/

/-- A 16-bit instruction of quadrant `q` with OP4 `op`. -/
def encC (q : BitVec 2) (op : BitVec 4) (h : CHalf) : BitVec 16 := op ++ h.a ++ h.b ++ h.c ++ q

def decC (h : BitVec 16) : CHalf := ⟨h.extractLsb' 8 4, h.extractLsb' 4 4, h.extractLsb' 2 2⟩

/-- imm6 of `[7:2]`, sign-extended. -/
def CHalf.imm6 (h : CHalf) : Word := (h.b ++ h.c).signExtend 32
/-- imm10 of `[11:2]`, sign-extended. -/
def CHalf.imm10 (h : CHalf) : Word := (h.a ++ h.b ++ h.c).signExtend 32
/-- The bits `[7:2]` and `[6:2]` as numbers. -/
def CHalf.low6 (h : CHalf) : Nat := (h.b ++ h.c).toNat
def CHalf.low5 (h : CHalf) : Nat := (h.b ++ h.c).toNat % 32

/-- A 16-bit instruction as an instruction of 2 bytes, zero-extended. -/
def half (h : BitVec 16) : Nat × Word := (2, h.zeroExtend 32)
def full (w : Word) : Nat × Word := (4, w)

/-- The KIND of Table 02.6. -/
def RmoKind.code : RmoKind → BitVec 4
  | .put => 0 | .get => 1 | .atomic => 2 | .signal => 3 | .send => 4 | .flowReset => 6 | .putReduce => 7

/-- Length in bytes and bits of a sequencer instruction (Tables 02.2, 02.3 and 02.7), zero-extended; none for a command
that is no instruction of the sequencer. -/
def Instr.word : Instr → Option (Nat × Word)
  | .alu _ (.w f) => some (full (encRR 0x00 f))
  | .alu _ (.c op4 h) => some (half (encC 0 (BitVec.ofNat 4 op4.val) h))
  | .alu _ (.undef16 h) => some (half h)
  | .alu _ (.undef32 w) => some (full w)
  | .addi _ (.w f) => some (full (encRI 0x01 f))
  | .addi _ (.li h) => some (half (encC 0 7 h))
  | .addi _ (.addi h) => some (half (encC 0 8 h))
  | .andi _ f => some (full (encRI 0x02 f))
  | .ori _ f => some (full (encRI 0x03 f))
  | .xori _ f => some (full (encRI 0x04 f))
  | .shi _ (.w f) => some (full (encSH 0x05 f))
  | .shi _ (.shli h) => some (half (encC 0 9 h))
  | .shi _ (.shri h) => some (half (encC 0 10 h))
  | .cmp _ (.w f) => some (full (encRR 0x06 f))
  | .cmp _ (.c h) => some (half (encC 0 6 h))
  | .cmpi _ (.w f) => some (full (encRI 0x07 f))
  | .cmpi _ (.c h) => some (half (encC 0 11 h))
  | .lui _ f => some (full (encUF 0x08 f))
  | .ld _ (.w f) => some (full (encMF 0x09 f))
  | .ld _ (.c h) => some (half (encC 0 12 h))
  | .st _ (.w f) => some (full (encMF 0x0A f))
  | .st _ (.c h) => some (half (encC 0 13 h))
  | .bcc _ (.w f) => some (full (encBF 0x0B f))
  | .bcc _ (.c h) => some (half (encC 1 0 h))
  | .jal _ (.w f) => some (full (encUF 0x0C f))
  | .jal _ (.c h) => some (half (encC 1 1 h))
  | .jalr _ (.w f) => some (full (encRI 0x0D f))
  | .jalr _ (.c h) => some (half (encC 1 5 h))
  | .mfs _ (.w f) => some (full (encSF 0x0E f))
  | .mfs _ (.c h) => some (half (encC 0 14 h))
  | .mts _ f => some (full (encSF 0x0F f))
  | .selc _ f => some (full (encRR 0x10 f))
  | .edesc _ f => some (full (encRR 0x12 f))
  | .waite _ (.w f) => some (full (encRR 0x13 f))
  | .waite _ (.c h) => some (half (encC 1 4 h))
  | .waitw _ f => some (full (encRR 0x14 f))
  | .emit _ (.w f) => some (full (encRR 0x15 f))
  | .emit _ (.c h) => some (half (encC 1 3 h))
  | .doneHandler _ (.w f) => some (full (encRR 0x16 f))
  | .doneHandler _ (.c h) => some (half (encC 1 2 h))
  | .trapSoft _ f => some (full (encRR 0x16 f))
  | .rtt _ (.w f) => some (full (encRR 0x16 f))
  | .rtt _ (.c h) => some (half (encC 1 2 h))
  | .halt _ f => some (full (encRR 0x16 f))
  | .cNop _ h => some (half (encC 1 2 h))
  | .rmoPut _ x => some (full (encXF 0 x))
  | .rmoGet _ x => some (full (encXF 1 x))
  | .rmoAtomic _ x => some (full (encXF 2 x))
  | .rmoSignal _ x => some (full (encXF 3 x))
  | .rmoSend _ x => some (full (encXF 4 x))
  | .fence _ (.w x) => some (full (encXF 5 x))
  | .fence _ (.c h) => some (half (encC 1 2 h))
  | .flowReset _ x => some (full (encXF 6 x))
  | .rmoPutReduce _ x => some (full (encXF 7 x))
  | _ => none

/-- The bits of the instruction, for TRAPVAL. -/
def Instr.bits (i : Instr) : Word := match i.word with | some (_, w) => w | none => 0

/-- The row of Table 02.7 that a halfword belongs to, whatever its fields hold: an encoding that no row defines is
presented on the ALU row, which takes the ILLEGAL trap (R45). -/
def decode16 (t : Nat) (h : BitVec 16) : Instr :=
  let f := decC h
  let op := (h.extractLsb' 12 4).toNat
  if h.extractLsb' 0 2 = 0 then
    if p : op < 6 then .alu t (.c ⟨op, p⟩ f)
    else if op = 6 then .cmp t (.c f)
    else if op = 7 then .addi t (.li f)
    else if op = 8 then .addi t (.addi f)
    else if op = 9 then .shi t (.shli f)
    else if op = 10 then .shi t (.shri f)
    else if op = 11 then .cmpi t (.c f)
    else if op = 12 then .ld t (.c f)
    else if op = 13 then .st t (.c f)
    else if op = 14 then .mfs t (.c f)
    else .alu t (.undef16 h)
  else if h.extractLsb' 0 2 = 1 then
    if op = 0 then .bcc t (.c f)
    else if op = 1 then .jal t (.c f)
    else if op = 2 then
      if f.a = 0 then .doneHandler t (.c f)
      else if f.a = 1 then .cNop t f
      else if f.a = 2 then .fence t (.c f)
      else if f.a = 3 then .rtt t (.c f)
      else .alu t (.undef16 h)
    else if op = 3 then .emit t (.c f)
    else if op = 4 then .waite t (.c f)
    else if op = 5 then .jalr t (.c f)
    else .alu t (.undef16 h)
  else .alu t (.undef16 h)

/-- The row of Table 02.3 that a 32-bit instruction belongs to (R42, R47). -/
def decode32 (t : Nat) (w : Word) : Instr :=
  match (w.extractLsb' 2 5).toNat with
  | 0x00 => .alu t (.w (decRR w))
  | 0x01 => .addi t (.w (decRI w))
  | 0x02 => .andi t (decRI w)
  | 0x03 => .ori t (decRI w)
  | 0x04 => .xori t (decRI w)
  | 0x05 => .shi t (.w (decSH w))
  | 0x06 => .cmp t (.w (decRR w))
  | 0x07 => .cmpi t (.w (decRI w))
  | 0x08 => .lui t (decUF w)
  | 0x09 => .ld t (.w (decMF w))
  | 0x0A => .st t (.w (decMF w))
  | 0x0B => .bcc t (.w (decBF w))
  | 0x0C => .jal t (.w (decUF w))
  | 0x0D => .jalr t (.w (decRI w))
  | 0x0E => .mfs t (.w (decSF w))
  | 0x0F => .mts t (decSF w)
  | 0x10 => .selc t (decRR w)
  | 0x11 => match (w.extractLsb' 19 4).toNat with
    | 0 => .rmoPut t (decXF w)
    | 1 => .rmoGet t (decXF w)
    | 2 => .rmoAtomic t (decXF w)
    | 3 => .rmoSignal t (decXF w)
    | 4 => .rmoSend t (decXF w)
    | 5 => .fence t (.w (decXF w))
    | 6 => .flowReset t (decXF w)
    | 7 => .rmoPutReduce t (decXF w)
    | _ => .alu t (.undef32 w)
  | 0x12 => .edesc t (decRR w)
  | 0x13 => .waite t (.w (decRR w))
  | 0x14 => .waitw t (decRR w)
  | 0x15 => .emit t (.w (decRR w))
  | 0x16 => match (w.extractLsb' 19 4).toNat with
    | 0 => .doneHandler t (.w (decRR w))
    | 1 => .trapSoft t (decRR w)
    | 2 => .rtt t (.w (decRR w))
    | 3 => .halt t (decRR w)
    | _ => .alu t (.undef32 w)
  | _ => .alu t (.undef32 w)

/-- The instruction whose first halfword is `lo` and whose second, if it is 32 bits long, is `hi` (R40). -/
def decodeSeq (t : Nat) (lo hi : BitVec 16) : Instr :=
  if lo.extractLsb' 0 2 = 3 then decode32 t (hi ++ lo) else decode16 t lo

/-- Is the halfword one that no row of Table 02.7 takes? -/
def undefined16 (h : BitVec 16) : Bool :=
  h.extractLsb' 0 2 ≠ 3 && decide (decode16 0 h = .alu 0 (.undef16 h))
/-- Is the 32-bit value one that no row of Table 02.3 takes? -/
def undefined32 (w : Word) : Bool :=
  w.extractLsb' 0 2 = 3 && decide (decode32 0 w = .alu 0 (.undef32 w))

end Sys2Proof
end

