-- ==== Sys2Proof/WellFormed.lean ====
section
/-! DEFINITION. Which operands the encoding of a sequencer instruction's row can hold: the number of an undefined form
must be undefined, and a row that is one FN or one OP4 of its format carries that number. A meaning refuses the rest. -/

namespace Sys2Proof

/-- Can the row's encoding hold these operands (R40 to R45)? Commands that are no sequencer instruction have no encoding. -/
def Instr.formOk : Instr → Bool
  | .alu _ (.undef16 h) => undefined16 h
  | .alu _ (.undef32 w) => undefined32 w
  | .doneHandler _ (.w f) => f.fn = 0
  | .doneHandler _ (.c h) => h.a = 0
  | .trapSoft _ f => f.fn = 1
  | .rtt _ (.w f) => f.fn = 2
  | .rtt _ (.c h) => h.a = 3
  | .halt _ f => f.fn = 3
  | .cNop _ h => h.a = 1
  | .fence _ (.c h) => h.a = 2
  | _ => true

/-- The tile a sequencer instruction runs on. -/
def Instr.seqTile : Instr → Option Nat
  | .alu t _ | .addi t _ | .andi t _ | .ori t _ | .xori t _ | .shi t _ | .cmp t _ | .cmpi t _ | .lui t _ | .ld t _
  | .st t _ | .bcc t _ | .jal t _ | .jalr t _ | .mfs t _ | .mts t _ | .selc t _ | .edesc t _ | .waite t _ | .waitw t _
  | .emit t _ | .doneHandler t _ | .trapSoft t _ | .rtt t _ | .halt t _ | .cNop t _ | .rmoPut t _ | .rmoGet t _
  | .rmoAtomic t _ | .rmoSignal t _ | .rmoSend t _ | .fence t _ | .flowReset t _ | .rmoPutReduce t _ => some t
  | _ => none

/-- A well-formed sequencer instruction: on a tile of the engine, with operands its encoding can hold. -/
def Instr.seqWf (i : Instr) : Bool :=
  match i.seqTile with
  | some t => t < Config.nTiles && i.formOk
  | none => false

end Sys2Proof
end

