-- ==== Sys2Proof/Machine/Operands.lean ====
section
/-! DEFINITION. The operand forms of the sequencer: its registers, ALU functions, memory accesses and special registers
(R34 to R43), the issue of one instruction from the store (R40, R46), and the decoding of remote addresses (R20 to R24). -/

namespace Sys2Proof.Machine

/-! ## Registers (R34) -/

def Seq.reg (q : Seq) (r : BitVec 4) : Word := if r = 0 then 0 else tGet 0 q.regs r.toNat
def Seq.setReg (q : Seq) (r : BitVec 4) (v : Word) : Seq :=
  if r = 0 then q else { q with regs := tSet 0 q.regs r.toNat v }

/-! ## ALU functions (Table 02.4) -/

def aluFn (fn : Nat) (a b : Word) : Word :=
  let k := b.toNat % 32
  match fn with
  | 0 => a + b
  | 1 => a - b
  | 2 => a &&& b
  | 3 => a ||| b
  | 4 => a ^^^ b
  | 5 => a <<< k
  | 6 => a >>> k
  | 7 => a.sshiftRight k
  | 8 => if a.slt b then 1 else 0
  | 9 => if a.ult b then 1 else 0
  | 10 => if b.slt a then b else a
  | 11 => if a.slt b then b else a
  | 12 => a * b
  | 13 => BitVec.ofNat 32 (a.toNat * b.toNat / 2 ^ 32)
  | 14 => if b = 0 then 0xFFFFFFFF else BitVec.ofNat 32 (a.toNat / b.toNat)
  | _ => if b = 0 then a else BitVec.ofNat 32 (a.toNat % b.toNat)

/-- SHI's KIND (Table 02.3); KIND 0b11 is illegal. -/
def shiFn (kind : Nat) (a : Word) (k : Nat) : Word :=
  match kind with
  | 0 => a <<< k
  | 1 => a >>> k
  | _ => a.sshiftRight k

/-- Bytes of an access of width W (LD, ST of Table 02.3). -/
def wBytes (w : Nat) : Nat := if w = 1 then 2 else if w = 2 then 4 else 1

/-- The value a load of width W delivers from the bytes read. -/
def loadValue (w : Nat) (bs : List Byte) : Word :=
  if w = 3 then (BitVec.ofNat 8 (leNat bs)).signExtend 32 else leWord bs

/-- Is the effective address beyond 0xFFFF or misaligned (cause 0x03)? -/
def lsBad (a : Word) (n : Nat) : Bool := 0xFFFF < a.toNat || a.toNat % n ≠ 0

/-! ## Issue of an instruction (R40, R46) -/

/-- The sequencer runs code and may issue its next instruction: no wait, no STOP and no trap due at this boundary
(R46, R55, R59). -/
def Seq.canIssue (q : Seq) : Bool :=
  (q.state = .entry || q.state = .handler || q.state = .trap) && q.wait = .none && !q.stopPend
    && (q.pend.isEmpty || !q.trapEn)

/-- Does the instruction store hold the instruction at PC, as far as the store reaches (R40)? -/
def Tile.fetches (x : Tile) (len : Nat) (w : Word) : Bool :=
  let pc := x.seq.pc.toNat
  let n := min len (0x2000 - pc)
  decide (pc < 0x2000) && mBytes 0 x.istore pc n = (leBytes len w.toNat).take n

/-- The sequencer of tile `t` issues the instruction `i`, which the store holds at PC. `bad` says that the instruction
is illegal, `leaves` that it does not pass control in sequence; an instruction that runs past the end of the store takes
FETCH_RANGE (R40). `eff` is its effect, given its length. An instruction that waits in `w0` may be presented again. At
0x1FFE an illegal encoding traps first, then FETCH_RANGE of the successor, then the causes that the effect finds (DESIGN
CHOICE, log 76). -/
def issueAs (w0 : Wait) (t : Nat) (i : Instr) (s : State) (bad : Bool) (leaves : Bool) (eff : Nat → State → State) :
    Out :=
  onTile t s fun s =>
    if !i.formOk then .refused .illFormed else
    match i.word with
    | none => .refused .illFormed
    | some (len, w) =>
      let x := s.tile t
      let pc := x.seq.pc.toNat
      let q := if x.seq.wait = w0 then { x.seq with wait := .none } else x.seq
      if !(q.canIssue && x.fetches len w) then .next s
      else if 0x2000 < pc + len then .next (s.syncTrap t 0x02 0x2000)
      else if bad then .next (s.syncTrap t 0x01 w)
      else if !leaves && pc + len = 0x2000 then .next (s.syncTrap t 0x02 0x2000)
      else .next (eff len s)

/-- The issue of an instruction that waits for nothing. -/
def issue (t : Nat) (i : Instr) (s : State) (bad : Bool) (leaves : Bool) (eff : Nat → State → State) : Out :=
  issueAs .none t i s bad leaves eff

/-- Move the PC to the next instruction in sequence. -/
def State.advance (s : State) (t len : Nat) : State :=
  s.modTile t (·.modSeq fun q => { q with pc := q.pc + BitVec.ofNat 32 len })

/-- Write a result and move on. -/
def State.result (s : State) (t len : Nat) (rd : BitVec 4) (v : Word) : State :=
  s.modTile t (·.modSeq fun q => { q.setReg rd v with pc := q.pc + BitVec.ofNat 32 len })

/-- Take a branch or jump: a target at or beyond the end of the store takes FETCH_RANGE, and the instruction has no
effect (R57, Table 02.9). -/
def State.jumpTo (s : State) (t : Nat) (target : Word) (f : Seq → Seq) : State :=
  if 0x2000 ≤ target.toNat then s.syncTrap t 0x02 target
  else s.modTile t (·.modSeq fun q => { f q with pc := target })

/-- The match entry an operation issued now is charged to (R75): the running handler's; none in the entry routine or a
trap handler. -/
def Seq.charged (q : Seq) : Option Nat := if q.state = .handler then q.running else none

/-- A tag with the tile's COURSE in `[13:12]` and an iteration index (R50, R65). -/
def mkTag (course : Nat) (iter : BitVec 12) : BitVec 14 := BitVec.ofNat 2 course ++ iter
def tagCourse (g : BitVec 14) : Nat := (g.extractLsb' 12 2).toNat
def tagIter (g : BitVec 14) : BitVec 12 := g.extractLsb' 0 12

/-! ## Special registers (R37, Table 02.1) -/

def smflg (q : Seq) : Word := q.smFlg.zeroExtend 32

/-- TRAPINFO, TRAPCAUSE and the like as MFS reads them; none for an unlisted number. A WO register reads 0 (R9). -/
def State.mfs (s : State) (t num : Nat) : Option Word :=
  let x := s.tile t
  let q := x.seq
  match num with
  | 0 => some (if q.state = .entry then 0 else q.tag.zeroExtend 32)
  | 1 => some (BitVec.ofNat 32 x.course)
  | 2 => some (BitVec.ofNat 32 t)
  | 3 => some (BitVec.ofNat 32 s.mgmt.engId)
  | 4 => some (BitVec.ofNat 32 (s.spanId t))
  | 5 => some (BitVec.ofNat 32 (s.timer t))
  | 6 => some q.timerHi
  | 7 => some (BitVec.ofNat 32 (s.gtime (fieldOf t)))
  | 8 => some q.gtimeHi
  | 9 | 10 | 11 | 12 => some (q.sm.getD (num - 9) 0)
  | 13 => some (q.smTag.zeroExtend 32)
  | 14 => some (smflg q)
  | 15 => some (BitVec.ofNat 32 x.ni.ops.length)
  | 16 => some (BitVec.ofNat 32 (x.eng.mat.length + 16 * x.eng.vec.length))
  | 17 => some (q.trapVec.zeroExtend 32)
  | 18 => some (BitVec.ofNat 32 q.trapCause)
  | 19 => some (q.trapPc.zeroExtend 32)
  | 20 => some q.trapVal
  | 21 => some (BitVec.ofNat 32 q.trapInfo)
  | 22 => some 0
  | 23 => some (BitVec.ofNat 32 q.flowFails)
  | _ => none

/-- What reading the register does besides: the shadows, and FLOWFAILS cleared by the read. -/
def Seq.mfsEffect (q : Seq) (num : Nat) (timer gtime : Nat) : Seq :=
  match num with
  | 5 => { q with timerHi := BitVec.ofNat 32 (timer / 2 ^ 32) }
  | 7 => { q with gtimeHi := BitVec.ofNat 32 (gtime / 2 ^ 32) }
  | 23 => { q with flowFails := 0 }
  | _ => q

/-- MTS to TRAPVEC and WDOGKICK; none for an unlisted or read-only number. TRAPVEC keeps an odd value, and its handler is
fetched from that odd address (DESIGN CHOICE, log 76). -/
def Seq.mts (q : Seq) (num : Nat) (v : Word) : Option Seq :=
  match num with
  | 17 => some { q with trapVec := v.setWidth 13 }
  | 22 => some { q with wdog := 0 }
  | _ => none

/-! ## Remote addresses (R20 to R24, Table 01.3) -/

def spaceOf (a : BitVec 48) : Nat := bitsN a.toNat 45 3
/-- The tile ID in `[44:24]` of spaces 0 to 2, or in `[36:16]` of space 5. -/
def addrTile (a : BitVec 48) : Nat := if spaceOf a = 5 then bitsN a.toNat 16 21 else bitsN a.toNat 24 21
def addrEng (a : BitVec 48) : Nat := bitsN a.toNat 37 8
/-- The address of an offset in a tile's scratchpad, in its registers, and of its queue port (Table 01.3, spaces 0 to 2). -/
def padAddr (t off : Nat) : BitVec 48 := BitVec.ofNat 48 (t * 2 ^ 24 + off)
def regAddr (t off : Nat) : BitVec 48 := BitVec.ofNat 48 (2 ^ 45 + t * 2 ^ 24 + off)
def queueAddr (t q : Nat) : BitVec 48 := BitVec.ofNat 48 (2 * 2 ^ 45 + t * 2 ^ 24 + q)

def addrKsOff (a : BitVec 48) : Nat := bitsN a.toNat 0 24
def addrSel (a : BitVec 48) : Nat := bitsN a.toNat 43 2
def addrWin (a : BitVec 48) : Nat := bitsN a.toNat 40 5
def addrWinOff (a : BitVec 48) : Nat := bitsN a.toNat 0 40
/-- Address `[47:16]`, as TRAPVAL holds it. -/
def addrHigh (a : BitVec 48) : Word := BitVec.ofNat 32 (a.toNat / 65536)

/-- Spaces 6 and 7, a nonzero reserved bit, Keystone select 0b11 (R20, R21). -/
def addrReserved (a : BitVec 48) : Bool :=
  match spaceOf a with
  | 0 | 1 | 2 => bitsN a.toNat 16 8 ≠ 0
  | 3 => addrSel a = 3 || bitsN a.toNat 24 19 ≠ 0
  | 4 | 5 => false
  | _ => true

/-- Does the address hold a tile ID that names no tile (R13)? -/
def addrNoTile (a : BitVec 48) : Bool :=
  match spaceOf a with
  | 0 | 1 | 2 | 5 => Config.nTiles ≤ addrTile a
  | _ => false

/-- The destination of a flow (R220); space 5 with this engine's own ID is the same as space 0 or 2 (R24). -/
def destOf (eng : Nat) (a : BitVec 48) : Dest :=
  match spaceOf a with
  | 3 => .keystone (addrSel a)
  | 4 => .window (addrWin a)
  | 5 => .tile (addrEng a) (addrTile a)
  | _ => .tile eng (addrTile a)

/-- TRAPINFO's flow argument of FLOW_STOPPED (Table 21.4): `[23:0]` the destination tile ID or window, `[31:24]` CODE. -/
def flowArg (d : Dest) (c : Code) : Nat :=
  c.toNat * 16777216 + (match d with | .tile _ t => t | .keystone k => k | .window w => w)

end Sys2Proof.Machine
end

