-- ==== Sys2Proof/Machine/PacketFmt.lean ====
section
/-! DEFINITION. Packets and tables as words: the head flit and the contributor flit (Tables 09.1 and 10.2, R196, R216), the
detour table entry (Table 09.6), and the Glost commands (R273). The machine carries packets as records; these are their
bits. -/

namespace Sys2Proof

/-- A field of a word: lowest bit, width, value. -/
abbrev Fld := Nat × Nat × Nat

/-- The word that some fields make; every other bit is 0. -/
def pack (fs : List Fld) : Nat := (fs.map fun f => f.2.2 % 2 ^ f.2.1 * 2 ^ f.1).sum

def flag (b : Bool) : Nat := if b then 1 else 0

/-- OP (Table 10.3; 0xB to 0xF by R365). -/
def PktOp.code : PktOp → Nat
  | .put => 0x0 | .get => 0x1 | .atomic => 0x2 | .signal => 0x3 | .send => 0x4 | .creditReq => 0x5 | .creditRet => 0x6
  | .putReduce => 0x7 | .resp => 0x8 | .getResp => 0x9 | .creditGrant => 0xA | .hello => 0xB | .helloAck => 0xC
  | .timeReq => 0xD | .timeResp => 0xE | .parity => 0xF

def opOf (n : Nat) : PktOp :=
  match n with
  | 0x0 => .put | 0x1 => .get | 0x2 => .atomic | 0x3 => .signal | 0x4 => .send | 0x5 => .creditReq | 0x6 => .creditRet
  | 0x7 => .putReduce | 0x8 => .resp | 0x9 => .getResp | 0xA => .creditGrant | 0xB => .hello | 0xC => .helloAck
  | 0xD => .timeReq | 0xE => .timeResp | _ => .parity

/-- Is the kind laid out as a response (OP 0x8 to 0xA)? -/
def PktOp.isResp : PktOp → Bool
  | .resp | .getResp | .creditGrant => true
  | _ => false

/-- A kind whose word 6 carries the credit fields. -/
def PktOp.isCredit : PktOp → Bool
  | .creditReq | .creditRet | .creditGrant => true
  | _ => false

/-- Words 0 to 3 (Table 09.1). -/
def Packet.routing (p : Packet) : List Nat :=
  let key := p.op = .putReduce
  [pack [(0, 21, p.dest), (21, 2, p.vc), (23, 1, flag p.reduce), (24, 1, flag p.bcast), (25, 4, p.flits),
         (29, 2, p.rtEpoch), (31, 1, flag p.out)],
   pack [(0, 21, p.waypoint), (21, 1, flag p.wpv), (22, 3, p.dcnt), (25, 1, flag p.rfmt), (26, 6, p.flags.toNat)],
   if key then pack [(0, 16, p.rid), (16, 3, p.contribs.length - 1)] else 0,
   if key then pack [(0, 16, p.doff)] else 0]

/-- The credit fields of word 6. -/
def Packet.creditWord (p : Packet) : Nat :=
  pack [(0, 8, p.slots.toNat), (8, 4, if p.op = .creditReq then p.run else 0), (12, 3, p.queue), (16, 2, p.gen)]
    + p.rsv

/-- Words 4 to 7 (Table 10.2). -/
def Packet.request (p : Packet) : List Nat :=
  let lenM1 := p.len - 1
  if p.op.isResp then
    [pack [(0, 4, p.op.code), (8, 8, if p.op = .getResp then lenM1 else 0), (16, 4, p.opid), (20, 8, p.code.toNat)],
     pack [(0, 21, p.srcTile), (21, 8, p.srcEng)],
     if p.op = .creditGrant then p.creditWord else p.old.toNat % 2 ^ 32,
     if p.op = .creditGrant then 0 else p.old.toNat / 2 ^ 32]
  else
    [pack [(0, 4, p.op.code), (4, 4, p.sub.toNat), (8, 8, lenM1), (16, 4, p.opid), (20, 12, p.span)],
     pack [(0, 21, p.srcTile), (21, 8, p.srcEng), (29, 3, p.srcKind)],
     if p.op.isCredit then p.creditWord else p.addr.toNat % 2 ^ 32,
     pack [(0, 16, if p.op.isCredit then 0 else p.addr.toNat / 2 ^ 32), (16, 14, p.tag.toNat),
           (30, 2, if p.op = .send then p.gen else 0)]]

/-- The head flit. -/
def Packet.head (p : Packet) : List Nat := p.routing ++ p.request

/-- The contributor flit: tile ID and engine of each contributor, unused entries 0 (R196). -/
def Packet.contribFlit (p : Packet) : List Nat :=
  (List.range 8).map fun i => match p.contribs[i]? with
    | some c => pack [(0, 21, c.1), (21, 8, c.2)]
    | none => 0

/-- Every field of the packet is a value of its width in Tables 09.1 and 10.2. -/
def Packet.sized (p : Packet) : Bool :=
  p.dest < 2 ^ 21 && p.vc < 4 && p.flits < 16 && p.rtEpoch < 4 && p.waypoint < 2 ^ 21 && p.dcnt < 8 && p.rid < 2 ^ 16
    && p.doff < 2 ^ 16 && p.contribs.length ≤ 8 && p.contribs.all (fun c => c.1 < 2 ^ 21 && c.2 < 2 ^ 8) && p.len ≤ 256
    && p.opid < 16 && p.span < 2 ^ 12 && p.srcTile < 2 ^ 21 && p.srcEng < 2 ^ 8 && p.srcKind < 8 && p.gen < 4
    && p.run < 16 && p.queue < 8

/-- What a head flit's words say of a packet, beside its payload. -/
def readHead (w : Nat → Nat) : Packet :=
  let op := opOf (bitsN (w 4) 0 4)
  let len := bitsN (w 4) 8 8 + 1
  { op := op, dest := bitsN (w 0) 0 21, vc := bitsN (w 0) 21 2, reduce := bitsN (w 0) 23 1 = 1, bcast := bitsN (w 0) 24 1 = 1,
    flits := bitsN (w 0) 25 4, rtEpoch := bitsN (w 0) 29 2, out := bitsN (w 0) 31 1 = 1,
    waypoint := bitsN (w 1) 0 21, wpv := bitsN (w 1) 21 1 = 1, dcnt := bitsN (w 1) 22 3, rfmt := bitsN (w 1) 25 1 = 1,
    flags := BitVec.ofNat 6 (bitsN (w 1) 26 6), rid := bitsN (w 2) 0 16, doff := bitsN (w 3) 0 16,
    len := len, opid := bitsN (w 4) 16 4, srcTile := bitsN (w 5) 0 21, srcEng := bitsN (w 5) 21 8,
    sub := if op.isResp then 0 else BitVec.ofNat 4 (bitsN (w 4) 4 4),
    span := if op.isResp then 0 else bitsN (w 4) 20 12, srcKind := if op.isResp then 0 else bitsN (w 5) 29 3,
    slots := if op.isCredit then BitVec.ofNat 8 (bitsN (w 6) 0 8) else 0,
    run := if op.isCredit then bitsN (w 6) 8 4 else 0, queue := if op.isCredit then bitsN (w 6) 12 3 else 0,
    rsv := if op.isCredit then bitsN (w 6) 15 1 * 2 ^ 15 + bitsN (w 6) 18 14 * 2 ^ 18 else 0,
    gen := if op.isCredit then bitsN (w 6) 16 2 else if op = .send then bitsN (w 7) 30 2 else 0,
    addr := if op.isCredit || op.isResp then 0 else BitVec.ofNat 48 (w 6 + bitsN (w 7) 0 16 * 2 ^ 32),
    tag := if op.isResp then 0 else BitVec.ofNat 14 (bitsN (w 7) 16 14),
    old := if op.isResp && op ≠ .creditGrant then BitVec.ofNat 64 (w 6 + w 7 * 2 ^ 32) else 0 }

/-- The three words of a detour table entry (Table 09.6). -/
def DetourEntry.words (e : DetourEntry) : List Nat :=
  let d := match e.dir with | .east => 0 | .north => 1 | .west => 2 | .south => 3
  [pack [(0, 10, e.xLo), (10, 10, e.xHi), (20, 2, d), (31, 1, flag e.valid)],
   pack [(0, 11, e.yLo), (11, 11, e.yHi)], pack [(0, 21, e.waypoint)]]

/-- The entry that three words lay out. -/
def readDetour (w0 w1 w2 : Nat) : DetourEntry :=
  { valid := bitsN w0 31 1 = 1
    dir := match bitsN w0 20 2 with | 0 => .east | 1 => .north | 2 => .west | _ => .south
    xLo := bitsN w0 0 10, xHi := bitsN w0 10 10, yLo := bitsN w1 0 11, yHi := bitsN w1 11 11, waypoint := bitsN w2 0 21 }

/-- A Glost command, without its payload (R273). -/
inductive GlostCmd where
  | open_ (n d : Nat)
  | digests (first : Nat)
  | part (seg k : Nat)
  | close
  deriving DecidableEq, Repr

/-- Head words 4 and 5 of a Glost command. -/
def GlostCmd.words : GlostCmd → Nat × Nat
  | .open_ n d => (pack [(24, 8, 0x41)], pack [(0, 16, n), (16, 16, d)])
  | .digests first => (pack [(0, 16, first), (24, 8, 0x44)], 0)
  | .part seg k => (pack [(0, 16, seg), (16, 4, k), (24, 8, 0x42)], 0)
  | .close => (pack [(24, 8, 0x43)], 0)

/-- The Glost command that head words 4 and 5 spell, if their code is one. -/
def readGlost (w4 w5 : Nat) : Option GlostCmd :=
  match bitsN w4 24 8 with
  | 0x41 => some (.open_ (bitsN w5 0 16) (bitsN w5 16 16))
  | 0x44 => some (.digests (bitsN w4 0 16))
  | 0x42 => some (.part (bitsN w4 0 16) (bitsN w4 16 4))
  | 0x43 => some .close
  | _ => none

end Sys2Proof
end

