-- ==== Sys2Proof/Machine/Pull.lean ====
section
/-! DEFINITION. What ends a pull of the Glost pass: the reports of its GETs, and the digest of the bytes that have landed
(R275). -/

namespace Sys2Proof.Machine

def State.modGlost (s : State) (t : Nat) (f : GlostTile → GlostTile) : State :=
  s.modTile t fun x => { x with glost := f x.glost }

/-- The digest of a content segment's bytes under its entry is the entry's (Table 12.4). -/
def segOk (raw bs : List Byte) : Bool := Config.sha384 (raw.take 16 ++ bs) = leNat ((raw.drop 16).take 48)

/-- A pull has failed; after 8 the tile stops pulling and is held in span reset (R275). -/
def State.pullFails (s : State) (t : Nat) : State :=
  let n := (s.tile t).glost.fails + 1
  s.modTile t fun x =>
    { x with glost := { x.glost with fails := n, listed := x.glost.listed || decide (8 ≤ n) }
             held := x.held || decide (8 ≤ n) }

/-- The bytes at a segment's landing place in a tile, none where they cannot be read. -/
def Tile.landed (x : Tile) (e : DirEntry) : Option (List Byte) :=
  match e.dest with
  | 0 => if x.pad.bad e.loff e.len || x.pad.anyOff e.loff e.len then none else some (x.pad.bytes e.loff e.len)
  | 1 => some (mBytes 0 x.istore e.loff e.len)
  | _ => some ((List.range e.len).map fun i =>
      (leBytes 4 (tGet 0 x.acts ((e.loff + i) / 4)).toNat).getD ((e.loff + i) % 4) 0)

/-- Every GET of a pull has been reported: the segment is verified, or the pull has failed, by a GET or by the digest. -/
def State.endPull (s : State) (t : Nat) (p : Pull) : State :=
  let s := s.modGlost t fun g => { g with pull := none }
  if p.bad then s.pullFails t
  else match tGet? (s.tile t).glost.expect p.seg with
    | none => s
    | some raw => match (s.tile t).landed (dirEntry raw) with
      | some bs =>
        if segOk raw bs then s.modGlost t fun g => { g with verified := g.verified ++ [p.seg] } else s.pullFails t
      | none => s.pullFails t

/-- A GET of the pull under way is reported. After a failed one the candidate's flow is to be reset before the next pull. -/
def State.pullReported (s : State) (t : Nat) (c : Code) : State :=
  match (s.tile t).glost.pull with
  | none => s
  | some p =>
    let p := { p with left := p.left - 1, bad := p.bad || decide (c ≠ .ok) }
    let s := s.modGlost t fun g => { g with pull := some p, resetOf := if c = .ok then g.resetOf else some p.cand }
    if p.left = 0 then s.endPull t p else s

end Sys2Proof.Machine
end

