-- ==== Sys2Proof/Machine/Queues.lean ====
section
/-! DEFINITION. The queues of a tile: tokens offered, messages stored and released, credits granted (R66 to R68, R228 to
R235). -/

namespace Sys2Proof.Machine

/-! ## Free values and choices (log 9) -/

/-- The next free word, and the state with the model's counter advanced. -/
def State.freeWord (s : State) : Word × State := (Config.freeWord s.freeCtr, { s with freeCtr := s.freeCtr + 1 })

/-- The n next free bytes. -/
def State.freeBytes (s : State) (n : Nat) : List Byte × State :=
  ((List.range n).map fun i => (Config.freeWord (s.freeCtr + i)).setWidth 8, { s with freeCtr := s.freeCtr + n })

/-- One of the candidates, where the manual does not say which; the only one where there is one. -/
def State.pick {α : Type} (s : State) : List α → Option α × State
  | [] => (none, s)
  | [a] => (some a, s)
  | l => (l[Config.freePick s.freeCtr % l.length]?, { s with freeCtr := s.freeCtr + 1 })

/-! ## Runs of slots (R230, R232) -/

/-- The first slots of the runs of `n` set bits of a bitmap. -/
def runs (b : BitVec 8) (n : Nat) : List Nat :=
  (List.range (9 - n)).filter fun j => (List.range n).all fun i => b.getLsbD (j + i)

/-- The CREDIT_GRANT that names a run to a waiting request (R232). -/
def creditGrantTo (eng t i gen : Nat) (w : CreditWait) (m : BitVec 8) : Packet :=
  { op := .creditGrant, dest := w.srcTile, vc := 1, out := w.srcKind ≠ 0, opid := w.opid, serial := w.serial, srcTile := t, srcEng := eng,
    gen := gen, slots := m, queue := i, deng := w.srcEng, seng := eng }

/-- Grant the waiting requests of queue `i` in arrival order while the first finds a run of free slots (R232). -/
def State.grantWaits : Nat → State → Nat → Nat → State
  | 0, s, _, _ => s
  | fuel + 1, s, t, i =>
    let x := s.tile t
    let q := x.queue i
    match q.waits with
    | [] => s
    | w :: ws =>
      match s.pick (runs (~~~q.used) w.run) with
      | (none, _) => s
      | (some j, s) =>
        let m := runMask j w.run
        let q := { q with waits := ws, grants := q.grants ++ [⟨w.srcTile, w.srcEng, w.srcKind, m⟩] }
        let s := s.setTile t ((x.setQueue i q).syncQueue i)
        let s := s.inject t [creditGrantTo s.mgmt.engId t i q.gen w m]
        State.grantWaits fuel s t i

/-- Grant what can be granted, and show the queue's status (R229). -/
def State.serveQueue (s : State) (t i : Nat) : State :=
  (s.modTile t (·.syncQueue i)).grantWaits 16 t i

/-- Re-arm the combining queue: its completed sum is released (R235). -/
def Tile.rearm (x : Tile) : Tile :=
  let x := { x with comb := { x.comb with held := false, taken := false, count := 0, flags := 0 } }
  x.syncQueue 7

/-- Release the message of queue `i` with the serial number: its slots go back to its sender, granted to it again (R231; log 15). -/
def State.releaseMsg (s : State) (t i serial : Nat) : State :=
  let x := s.tile t
  let q := x.queue i
  if q.comb then (if x.comb.held then s.setTile t x.rearm else s) else
    match q.msgs.find? (·.serial = serial) with
    | none => s
    | some m =>
      let m' := runMask m.slot m.nslots
      let q' := { q with msgs := q.msgs.filter (·.serial ≠ serial),
                         grants := q.grants ++ [⟨m.srcTile, m.srcEng, m.srcKind, m'⟩] }
      let s := s.setTile t (x.setQueue i q')
      let s := s.inject t [{ creditRet s.mgmt.engId t i q.gen m.srcTile m.srcEng m.srcKind m' with toSender := true }]
      s.serveQueue t i

/-- Release the message a token stands for, if it stands for one. -/
def State.releaseTok (s : State) (t : Nat) (k : Token) : State :=
  match k.msg with
  | some (i, n) => s.releaseMsg t i n
  | none => s

/-- A sequencer ST to QHEADi: it releases the oldest message of an unbound queue (R231). -/
def State.storeHead (s : State) (t i : Nat) : State :=
  let x := s.tile t
  let q := x.queue i
  if !q.isOpen || x.bound i then s
  else if q.comb then s.releaseMsg t i 0
  else match q.msgs with
    | [] => s
    | m :: _ => s.releaseMsg t i m.serial

/-! ## Tokens -/

/-- Count a discarded stale token; STALE_TOKEN is raised at the first discard in a course (R84). -/
def State.stale (s : State) (t : Nat) : State :=
  let x := s.tile t
  let s := s.modTile t (·.count cStale 1)
  if x.staleRaised then s
  else (s.modTile t fun x => { x with staleRaised := true }).tileEvent t 0x0103 x.course

/-- The token that the head of queue `i` offers, if the queue is bound (R67). -/
def Tile.queueTok (x : Tile) (i : Nat) : Option Token :=
  let q := x.queue i
  if !q.isOpen || !x.bound i then none
  else if q.comb then
    if x.comb.held && !x.comb.taken then
      some ⟨7, x.comb.tag, BitVec.ofNat 32 (bitsW x.comb.decl1 0 9 * 65536 + 0xFE00), some (7, 0)⟩
    else none
  else (q.msgs.find? (!·.taken)).map fun m => ⟨i, m.tag, msgValue i m, some (i, m.serial)⟩

/-- The head of queue `i` has become a token: the next message is its head. -/
def Tile.takeQueue (x : Tile) (i : Nat) : Tile :=
  let q := x.queue i
  if q.comb then { x with comb := { x.comb with taken := true } }
  else match q.msgs.find? (!·.taken) with
    | none => x
    | some m => x.setQueue i { q with msgs := q.msgs.map fun n => if n.serial = m.serial then { n with taken := true } else n }

/-- A token is created for a local slot: discarded and counted where nothing names the slot (R68), else offered to the
local token buffer; none where the buffer is full (R69). -/
def State.putLocal (s : State) (t : Nat) (k : Token) : Option State :=
  let x := s.tile t
  if !x.bound k.slot then some (s.modTile t (·.count cUnbound 1))
  else if x.df.ltb.length < 8 then some (s.modTile t (·.modDf fun d => { d with ltb := d.ltb ++ [k] }))
  else none

/-! ## Messages (R230, R66) -/

/-- The tag a SEND is admitted with: its own within the span on the same engine, else the receiver's COURSE (R66). -/
def State.admitTag (s : State) (t : Nat) (p : Packet) : BitVec 14 :=
  let x := s.tile t
  if p.srcKind = 0 && p.srcEng = s.mgmt.engId && (s.spanOf t).isSome && p.span = s.spanId t then p.tag
  else mkTag x.course (tagIter p.tag)

/-- Store a message of `p` in queue `i`, at the slots it names (R230): the bytes land, and the grant it used is spent. -/
def State.storeMsg (s : State) (t i : Nat) (p : Packet) : State :=
  let n := slotsFor p.data.length
  let m := runMask p.sub.toNat n
  let s := s.padWrite t (0xF700 + 256 * i + 32 * p.sub.toNat) p.data
  let tag := s.admitTag t p
  s.modTile t fun x =>
    let q := x.queue i
    let q := { q with
      arrived := (q.arrived + 1) % 16384,
      serial := q.serial + 1,
      grants := (q.grants.map fun g =>
        if g.srcTile = p.srcTile && g.srcEng = p.srcEng && g.srcKind = p.srcKind then { g with slots := g.slots &&& ~~~m }
        else g).filter fun g => g.slots ≠ 0,
      msgs := q.msgs ++ [⟨q.serial, p.sub.toNat, n, p.data.length, tag, p.srcTile, p.srcEng, p.srcKind, false⟩] }
    (x.setQueue i q).syncQueue i

end Sys2Proof.Machine
end

