-- ==== Sys2Proof/Machine/Ni.lean ====
section
/-! DEFINITION. The network interface as a sender: which operation of the issue buffer may leave, credits of SENDs, flows
stopped and reset, and answers reported in issue order (R210, R218 to R227, R232, R346, R367, R446). -/

namespace Sys2Proof.Machine

/-! ## Where a packet leaves the mesh -/

/-- The Keystone that a select value names (R21). -/
def State.selSide (s : State) (k : Nat) : Side := if k = 1 then .south else if k = 2 then .north else s.mgmt.active

/-- DEST and OUT of an operation's packets, or the code with which the interface answers it itself (R346, R366, R367). -/
def State.exit (s : State) (t : Nat) (d : Dest) : Except Code (Nat × Bool) :=
  let at_ := fun (b : Block) (c : Code) => match s.attachFor b t with
    | some u => .ok (u, true)
    | none => .error c
  match d with
  | .tile e u =>
    if e = s.mgmt.engId then .ok (u, false)
    else match s.pairFor e t with
      | some (lp, _) => at_ (.vdt lp) .unreachable
      | none => .error .unreachable
  | .keystone k => at_ (.keystone (s.selSide k)) .unreachable
  | .window w => match tGet? s.windows w with
    | none => .error .addressFault
    | some x => at_ (.pcie x.port) .linkDown

/-! ## Packets of an operation (R216, R217) -/

def rmoOp : RmoKind → PktOp
  | .put => .put | .get => .get | .atomic => .atomic | .signal => .signal | .send => .send
  | .flowReset => .signal | .putReduce => .putReduce

/-- Flits of a packet of kind `o` that carries `n` bytes (Table 10.3). -/
def flitsOf (o : PktOp) (n : Nat) : Nat :=
  match o with
  | .put | .send | .getResp => 1 + ceilDiv n 32
  | .putReduce => 2 + ceilDiv n 32
  | .atomic => 2
  | _ => 1

/-- The 16 payload bytes of an ATOMIC: operand or new value in words 0 and 1, compare value in words 2 and 3. -/
def atomicPayload (v c : List Byte) : List Byte :=
  v ++ List.replicate (8 - v.length) 0 ++ c ++ List.replicate (8 - c.length) 0

def IssueOp.isCas (o : IssueOp) : Bool := o.sub.toNat % 8 = 4
def IssueOp.is64 (o : IssueOp) : Bool := o.kind = .atomic && o.sub.getLsbD 3

/-- The local bytes an operation reads through bank-port input 6 before its packet leaves: offset and length. -/
def IssueOp.reads (o : IssueOp) : Nat × Nat :=
  match o.kind with
  | .put | .send | .putReduce => if o.comp.isSome then (0, 0) else (o.loc, o.len)
  | .atomic => if o.is64 then (o.loc, if o.isCas then 16 else 8) else (0, 0)
  | _ => (0, 0)

/-- The payload of an operation, from its local bytes. -/
def IssueOp.payload (o : IssueOp) (bs : List Byte) : List Byte :=
  match o.kind with
  | .put | .send | .putReduce => if o.comp.isSome then o.opnd else bs
  | .atomic =>
    if o.is64 then atomicPayload (bs.take 8) (bs.drop 8) else atomicPayload (o.opnd.take 4) (o.opnd.drop 4)
  | _ => []

def State.packetOf (s : State) (t : Nat) (o : IssueOp) (dest : Nat) (out : Bool) (data : List Byte) : Packet :=
  { op := rmoOp o.kind, dest := dest, vc := o.vc, reduce := o.kind = .putReduce, out := out,
    flits := flitsOf (rmoOp o.kind) o.len, rtEpoch := s.routes.epoch,
    rfmt := o.kind = .putReduce && o.sub.getLsbD 0, rid := o.rid,
    doff := if o.kind = .putReduce then addrOff o.addr else 0,
    contribs := if o.kind = .putReduce then [(t, s.mgmt.engId)] else [],
    cops := if o.kind = .putReduce then [(o.id, o.serial)] else [], serial := o.serial,
    sub := if o.kind = .atomic then o.sub else 0, len := o.len, opid := o.id, span := s.spanId t, srcTile := t,
    srcEng := s.mgmt.engId, addr := o.addr, tag := o.tag, data := data,
    deng := if spaceOf o.addr = 5 then addrEng o.addr else s.mgmt.engId, seng := s.mgmt.engId }

/-- Hand a packet to the router, or, where the tile is its own destination, to its own inbox (log 12). -/
def State.launch (s : State) (t : Nat) (p : Packet) : State := s.inject t [p]

/-- An operation enters the issue buffer with its number. -/
def Ni.append (n : Ni) (o : IssueOp) : Ni :=
  { n with ops := n.ops ++ [{ o with serial := n.serial }], serial := n.serial + 1 }

/-! ## Answering and reporting an operation -/

def State.setOp (s : State) (t k : Nat) (o : IssueOp) : State :=
  s.modTile t (·.modNi fun n => { n with ops := n.ops.set k o })

/-- The landing range of a GET or of a 64-bit ATOMIC (R179). -/
def IssueOp.landing (o : IssueOp) : Nat × Nat := (o.loc, o.loc + (if o.kind = .get then o.len else 8) - 1)

/-- Will the operation be reported FLOW_STOPPED, so that its landing range is released at the report (R225)? -/
def IssueOp.lateLanding (o : IssueOp) (c : Code) : Bool := o.doomed || c = .flowStopped

/-- Is the answer one that SIGNALs and SENDs to the destination then fail for (R223)? -/
def IssueOp.failsWith (o : IssueOp) (c : Code) : Bool :=
  c.isFailure && (o.kind = .put || o.kind = .putReduce || o.kind = .atomic)

/-- Operation `k` is answered: its landing range is released, unless the operation is to be reported FLOW_STOPPED, and a
failed PUT, PUT REDUCE or ATOMIC is remembered until the destination's FLOW_RESET (R179, R223, R225). -/
def State.answerOp (s : State) (t k : Nat) (o : IssueOp) (c : Code) : State :=
  let fails := o.failsWith c
  let frees := o.lands && !o.lateLanding c
  let now := s.now
  let s := s.modTile t fun x =>
    let x := if frees then x.modPad (·.landed now o.place) else x
    x.modNi fun n => { n with failed := if fails && !n.failed.contains o.dest then o.dest :: n.failed else n.failed }
  s.setOp t k { o with st := .answered c, lands := o.lands && !frees }

/-- The operations of the flow of `o` issued after it are reported FLOW_STOPPED, up to a FLOW_RESET of the destination
that waits behind it: those after the reset wait for it and leave (R224, R227). -/
def doomAfter (o : IssueOp) : List IssueOp → List IssueOp
  | [] => []
  | p :: ps =>
    if p.kind = .flowReset && p.dest = o.dest then p :: ps
    else (if p.dest = o.dest && p.vc = o.vc then { p with doomed := true } else p) :: doomAfter o ps

/-- The flow of an operation stops: an entry, or the all-stopped state where none is free (R224, R226). -/
def Ni.stop (n : Ni) (o : IssueOp) (c : Code) : Ni :=
  let ops := doomAfter o n.ops
  if n.stopped.length < 16 then { n with stopped := n.stopped ++ [(o.dest, o.vc, c)], ops := ops }
  else { n with allStopped := true, ops := ops }

/-- FLOW_STOPPED is raised: once for a flow, and once on entering all-stopped (R226). -/
def Ni.stopRaises (n : Ni) : Bool := n.stopped.length < 16 || !n.allStopped

/-- The flow of an operation of tile `t` stops (R224, R226). -/
def State.stopFlow (s : State) (t : Nat) (o : IssueOp) (c : Code) : State :=
  let raise := (s.tile t).ni.stopRaises
  let s := s.modTile t (·.modNi (·.stop o c))
  if raise then s.tileEvent t 0x0404 (flowArg o.dest c) else s

def Dest.tileNo : Dest → Nat
  | .tile _ t => t
  | .keystone k => k
  | .window w => w

/-- The trap of a failure (R58, Tables 02.9 and 10.4). -/
def State.failTrap (s : State) (t : Nat) (o : IssueOp) (c : Code) : State :=
  match c with
  | .qfullTimeout => s.asyncTrap t 0x07 o.rb 0 o.dest.tileNo
  | .readerGone => s.asyncTrap t 0x08 o.rb 0 o.dest.tileNo
  | c => s.asyncTrap t 0x09 (addrHigh o.addr) c.toNat 0

/-- Operation `o`, removed from the buffer, is reported with its code (R219, R222, R224, R225). A GET of the router interface's
own is reported to its pull, and raises no trap of the sequencer (R275, log 83). -/
def State.reportOp (s : State) (t : Nat) (o : IssueOp) (c : Code) : State :=
  let c := if o.doomed then .flowStopped else c
  let now := s.now
  let s := s.modTile t fun x =>
    let x := if o.lands then x.modPad (·.landed now o.place) else x
    let x := x.charge o.entry fun m => { m with rops := m.rops - 1 }
    let x := match o.comp with
      | none => x
      | some cons => x.modEng fun e => { e with vec := match e.vec with
        | [] => []
        | d :: ds => { d with rops := d.rops - 1,
                              out := if c.isFailure then d.out.filter (·.cons ≠ cons) else d.out } :: ds }
    if x.seq.wait = .atomic o.id (match x.seq.wait with | .atomic _ rd => rd | _ => 0) && o.kind = .atomic && !o.is64 then
      x.modSeq fun q => { q with wait := match q.wait with
        | .atomic _ rd => .atomicDone rd (if c = .ok then some (o.old.setWidth 32) else none)
        | w => w }
    else x
  let s := if o.doomed && (o.kind = .get || o.is64) then
      let f := s.freeBytes (o.landing.2 + 1 - o.landing.1)
      f.2.modTile t fun x => { x with pad := x.pad.write o.landing.1 f.1 }
    else s
  if o.pull then (if c.isFailure && c ≠ .flowStopped then s.stopFlow t o c else s).pullReported t c
  else if c = .flowStopped then
    s.modTile t (·.modSeq fun q => { q with flowFails := (q.flowFails + 1) % 2 ^ 32 })
  else if c.isFailure then (s.stopFlow t o c).failTrap t o c
  else s

/-- The first operation whose answer may be reported: answered, and the first of its destination (R222). -/
def firstReport : List IssueOp → List IssueOp → Option (IssueOp × Code × List IssueOp)
  | _, [] => none
  | seen, o :: os =>
    match o.st with
    | .answered c => if seen.any (·.dest = o.dest) then firstReport (seen ++ [o]) os else some (o, c, seen ++ os)
    | _ => firstReport (seen ++ [o]) os

def State.reportAll : Nat → State → Nat → State
  | 0, s, _ => s
  | fuel + 1, s, t =>
    match firstReport [] (s.tile t).ni.ops with
    | none => s
    | some (o, c, rest) => ((s.modTile t (·.modNi fun n => { n with ops := rest })).reportOp t o c).reportAll fuel t

/-! ## Leaving the interface (R220, R223, R227, R232) -/

/-- The credit entry of a SEND's channel. -/
def Credit.isFor (c : Credit) (o : IssueOp) : Bool :=
  .tile c.eng c.tile = o.dest && c.queue = sendQueue o.addr

/-- Is a SEND of this channel waiting (R232)? -/
def Ni.sendWaits (n : Ni) (c : Credit) : Bool :=
  n.ops.any fun o => o.kind = .send && c.isFor o && (match o.st with | .requested | .retry _ => true | _ => false)

/-- A CREDIT_RET that gives back the slots of a credit entry. -/
def State.giveBack (s : State) (t : Nat) (c : Credit) : State :=
  if c.slots = 0 then s else
  match s.exit t (.tile c.eng c.tile) with
  | .ok (u, out) => s.launch t { creditRet s.mgmt.engId t c.queue c.gen u c.eng 0 c.slots with
      out := out, addr := 0, deng := c.eng, span := s.spanId t, rdest := c.tile }
  | .error _ => s

/-- The CREDIT_REQ of a SEND: it gives back what the entry holds (R232). -/
def State.requestOf (s : State) (t : Nat) (o : IssueOp) (c : Credit) (u : Nat) (out : Bool) : Packet :=
  { op := .creditReq, dest := u, vc := 0, out := out, opid := o.id, serial := o.serial, span := s.spanId t, srcTile := t,
    srcEng := s.mgmt.engId, gen := c.gen, slots := c.slots, run := slotsFor o.len, queue := c.queue, tag := o.tag,
    rtEpoch := s.routes.epoch, deng := c.eng, seng := s.mgmt.engId, rdest := c.tile }

/-- Where the entry for a SEND's channel can stand: an entry it has, a new one, or one in place of the least recently
used entry that has no waiting SEND; none where every entry has one (R232). -/
def Ni.creditPlace (n : Ni) (o : IssueOp) (now : Nat) (eng tile : Nat) : Option (List Credit × Option Credit) :=
  if n.credits.any (·.isFor o) then some (n.credits, none)
  else
    let new : Credit := ⟨eng, tile, sendQueue o.addr, 0, 0, now⟩
    if n.credits.length < 8 then some (n.credits ++ [new], none)
    else
      let idle := n.credits.filter fun c => !n.sendWaits c
      match idle.foldl (fun b c => match b with | none => some c | some d => if c.used < d.used then some c else some d) none with
      | none => none
      | some c => some (n.credits.filter (· ≠ c) ++ [new], some c)

/-- Change the credit entry of a SEND's channel. -/
def Ni.modCredit (n : Ni) (o : IssueOp) (f : Credit → Credit) : Ni :=
  { n with credits := n.credits.map fun c => if c.isFor o then f c else c }

/-- A SEND whose turn has come: it leaves with credits in hand, or asks for them, or waits for an entry (R232). -/
def State.tryCredits (s : State) (t k : Nat) (o : IssueOp) (u : Nat) (out : Bool) (data : List Byte) : State :=
  let de := match o.dest with | .tile e v => (e, v) | _ => (0, 0)
  match (s.tile t).ni.creditPlace o s.now de.1 de.2 with
  | none => s
  | some (cs, evicted) =>
    let s := s.modTile t (·.modNi fun n => { n with credits := cs })
    let s := match evicted with
      | some c => s.giveBack t c
      | none => s
    match (s.tile t).ni.credits.find? (·.isFor o) with
    | none => s
    | some c =>
      match runs c.slots (slotsFor o.len) with
      | j :: _ =>
        let m := runMask j (slotsFor o.len)
        let s := s.modTile t (·.modNi fun n => n.modCredit o fun c => { c with slots := c.slots &&& ~~~m, used := s.now })
        let p := { s.packetOf t o u out data with sub := BitVec.ofNat 4 j, gen := c.gen, slots := m,
                                                  queue := sendQueue o.addr }
        (s.setOp t k { o with st := .sent s.now, epoch := s.routes.epoch }).launch t p
      | [] =>
        let p := s.requestOf t o c u out
        let s := s.modTile t (·.modNi fun n => n.modCredit o fun c => { c with slots := 0 })
        (s.setOp t k { o with st := .requested, epoch := s.routes.epoch }).launch t p

def IssueOp.waiting (o : IssueOp) : Bool := match o.st with | .waiting => true | _ => false
/-- It has not left: it waits, or its credits are asked for. -/
def IssueOp.unsent (o : IssueOp) : Bool := match o.st with | .waiting | .requested | .retry _ => true | _ => false
/-- Its packet is out and not answered. -/
def IssueOp.inFlight (o : IssueOp) : Bool := match o.st with | .sent _ | .requested | .retry _ => true | _ => false
def IssueOp.failedUnreported (o : IssueOp) : Bool := match o.st with | .answered c => c.isFailure | _ => false
def IssueOp.sameFlow (a b : IssueOp) : Bool := a.dest = b.dest && a.vc = b.vc
/-- An operation that a SIGNAL or SEND to the same destination waits for (R223). -/
def IssueOp.guards (o : IssueOp) : Bool :=
  (o.kind = .put || o.kind = .putReduce || o.kind = .atomic) && !(match o.st with | .answered .ok => true | _ => false)

/-- What the interface does now with a waiting operation, given the operations before it. -/
inductive Turn where
  | wait
  | fail (c : Code)
  | reset
  | go
  deriving DecidableEq, Repr

/-- The turn of an operation, given those before it, at an interface that knows route epoch `epoch`: a tile's, or that of a
Pier's bulk mover (R220, R223, R224, R226, R227; R210, R347). -/
def Ni.turn (n : Ni) (epoch : Nat) (earlier : List IssueOp) (o : IssueOp) : Turn :=
  if o.kind = .flowReset then (if earlier.any (·.dest = o.dest) then .wait else .reset)
  else if earlier.any fun e => e.kind = .flowReset && e.dest = o.dest then .wait
  else if n.allStopped || n.stopped.any (fun e => e.1 = o.dest && e.2.1 = o.vc) then .fail .flowStopped
  else if earlier.any fun e => e.sameFlow o && (e.unsent || e.failedUnreported) then .wait
  else if (o.kind = .signal || o.kind = .send) && n.failed.contains o.dest then .fail .flowStopped
  else if (o.kind = .signal || o.kind = .send) && earlier.any (fun e => e.dest = o.dest && e.guards) then .wait
  else if earlier.any fun e => e.sameFlow o && e.inFlight && e.epoch ≠ epoch then .wait
  else .go

def State.turn (s : State) (t : Nat) (earlier : List IssueOp) (o : IssueOp) : Turn := (s.tile t).ni.turn s.routes.epoch earlier o

/-- FLOW_RESET completes (R227): the destination's entries go; one that names the tile itself clears every entry. -/
def Ni.flowReset (n : Ni) (d own : Dest) : Ni :=
  { n with
    stopped := if d = own then [] else n.stopped.filter fun e => e.1 ≠ d
    allStopped := if d = own then false else n.allStopped
    failed := n.failed.filter (· ≠ d) }

/-- Operation `k` of the buffer takes its turn. -/
def State.pumpOne (s : State) (t k : Nat) : State :=
  let ops := (s.tile t).ni.ops
  match ops[k]? with
  | none => s
  | some o =>
    if !o.waiting then s else
    match s.turn t (ops.take k) o with
    | .wait => s
    | .fail c => s.answerOp t k o c
    | .reset =>
      (s.modTile t (·.modNi (·.flowReset o.dest (.tile s.mgmt.engId t)))).answerOp t k o .ok
    | .go =>
      match s.exit t o.dest with
      | .error c => s.answerOp t k o c
      | .ok (u, out) =>
        let p := (s.tile t).pad
        let r := o.reads
        let data := o.payload (p.bytes r.1 r.2)
        if p.bad r.1 r.2 then (s.readEffects t r.1 r.2).answerOp t k o .uncorrectable
        else if o.kind = .send then (s.readEffects t r.1 r.2).tryCredits t k o u out data
        else
          let s := s.readEffects t r.1 r.2
          (s.setOp t k { o with st := .sent s.now, epoch := s.routes.epoch }).launch t (s.packetOf t o u out data)

def State.pumpAll (s : State) (t : Nat) : State :=
  (List.range (s.tile t).ni.ops.length).foldl (fun s k => s.pumpOne t k) s

/-- The compressor of the vector descriptor in execution places its next PUT or SIGNAL in the issue buffer (R164); with the
gate value at 0 it places none (R144). -/
def State.feedOne (s : State) (t : Nat) : State :=
  let x := s.tile t
  if x.eng.gate = 0 then s else
  match x.eng.vec with
  | [] => s
  | d :: ds =>
    match d.out with
    | [] => s
    | c :: cs =>
      match tFree (x.ni.ops.map fun o => (o.id, ())) 16 with
      | none => s
      | some id =>
        let o : IssueOp :=
          { id := id, kind := if c.signal then .signal else .put, dest := destOf s.mgmt.engId c.addr, vc := 0,
            addr := c.addr, len := if c.signal then 4 else c.data.length, loc := 0, sub := 0, opnd := c.data, rb := 0,
            tag := d.tag, entry := d.entry, comp := some c.cons, epoch := s.routes.epoch }
        s.modTile t fun x => ((x.modEng fun e => { e with vec := { d with out := cs, rops := d.rops + 1 } :: ds }).modNi
          fun n => n.append o).charge d.entry fun m => { m with rops := m.rops + 1 }

/-- PUTs and SIGNALs of the compressor that have not entered the issue buffer. -/
def Tile.unfed (x : Tile) : Nat :=
  match x.eng.vec with
  | [] => 0
  | d :: _ => d.out.length

def State.pumpLoop : Nat → State → Nat → State
  | 0, s, _ => s
  | fuel + 1, s, t =>
    let s' := ((s.feedOne t).pumpAll t).reportAll 17 t
    if (s'.tile t).ni.ops = (s.tile t).ni.ops && (s'.tile t).unfed = (s.tile t).unfed then s' else s'.pumpLoop fuel t

/-- Let the network interface of a tile do all it can do now. -/
def State.pump (s : State) (t : Nat) : State := s.pumpLoop (17 + (s.tile t).unfed) t

/-- The lowest free place of the issue buffer. -/
def Ni.freeId (n : Ni) : Option Nat := tFree (n.ops.map fun o => (o.id, ())) 16

/-- An operation enters the issue buffer, charged to the entry it names, and leaves as soon as it may. -/
def State.enterOp (s : State) (t : Nat) (o : IssueOp) : State :=
  (s.modTile t fun x => (x.modNi fun n => n.append o).charge o.entry
    fun m => { m with rops := m.rops + 1 }).pump t

end Sys2Proof.Machine
end

