-- ==== Sys2Proof/Machine/Sequencer.lean ====
section
/-! DEFINITION. The sequencer's instructions (R34 to R51, Tables 02.3 to 02.7), one meaning for each row. -/

namespace Sys2Proof.Machine

def State.seq (s : State) (t : Nat) : Seq := (s.tile t).seq

/-! ## Arithmetic (R42, R43, R45) -/

/-- ALU, C.MV and C.ADD to C.XOR; an encoding that no row defines is illegal (R42, R45). -/
def execAlu (t : Nat) (f : AluForm) (s : State) : Out :=
  match f with
  | .w g => issue t (.alu t f) s (g.hi ≠ 0) false fun n s =>
      s.result t n g.rd (aluFn g.fn.toNat ((s.seq t).reg g.rs1) ((s.seq t).reg g.rs2))
  | .c op h => issue t (.alu t f) s (h.c ≠ 0 || (op.val = 0 && h.a = 0)) false fun n s =>
      let b := (s.seq t).reg h.b
      s.result t n h.a (if op.val = 0 then b else aluFn (op.val - 1) ((s.seq t).reg h.a) b)
  | .undef16 _ => issue t (.alu t f) s true false fun _ s => s
  | .undef32 _ => issue t (.alu t f) s true false fun _ s => s

/-- ADDI, C.LI and C.ADDI. -/
def execAddi (t : Nat) (f : AddiForm) (s : State) : Out :=
  match f with
  | .w g => issue t (.addi t f) s false false fun n s =>
      s.result t n g.rd ((s.seq t).reg g.rs1 + g.imm.signExtend 32)
  | .li h => issue t (.addi t f) s false false fun n s => s.result t n h.a h.imm6
  | .addi h => issue t (.addi t f) s false false fun n s => s.result t n h.a ((s.seq t).reg h.a + h.imm6)

def execAndi (t : Nat) (f : RI) (s : State) : Out :=
  issue t (.andi t f) s false false fun n s => s.result t n f.rd ((s.seq t).reg f.rs1 &&& f.imm.signExtend 32)

def execOri (t : Nat) (f : RI) (s : State) : Out :=
  issue t (.ori t f) s false false fun n s => s.result t n f.rd ((s.seq t).reg f.rs1 ||| f.imm.signExtend 32)

def execXori (t : Nat) (f : RI) (s : State) : Out :=
  issue t (.xori t f) s false false fun n s => s.result t n f.rd ((s.seq t).reg f.rs1 ^^^ f.imm.signExtend 32)

/-- SHI, C.SHLI and C.SHRI; KIND 0b11, and bit 7 of a 16-bit shift, are illegal. -/
def execShi (t : Nat) (f : ShiForm) (s : State) : Out :=
  match f with
  | .w g => issue t (.shi t f) s (g.hi ≠ 0 || g.kind = 3) false fun n s =>
      s.result t n g.rd (shiFn g.kind.toNat ((s.seq t).reg g.rs1) g.shamt.toNat)
  | .shli h => issue t (.shi t f) s (h.b.getLsbD 3) false fun n s =>
      s.result t n h.a (shiFn 0 ((s.seq t).reg h.a) h.low5)
  | .shri h => issue t (.shi t f) s (h.b.getLsbD 3) false fun n s =>
      s.result t n h.a (shiFn 1 ((s.seq t).reg h.a) h.low5)

/-- Set the flags of a comparison and move on (R44). -/
def State.compareAt (s : State) (t n : Nat) (a b : Word) : State :=
  (s.modTile t (·.modSeq (·.compare a b))).advance t n

def execCmp (t : Nat) (f : Enc RR) (s : State) : Out :=
  match f with
  | .w g => issue t (.cmp t f) s (g.rd ≠ 0 || g.fn ≠ 0 || g.hi ≠ 0) false fun n s =>
      s.compareAt t n ((s.seq t).reg g.rs1) ((s.seq t).reg g.rs2)
  | .c h => issue t (.cmp t f) s (h.c ≠ 0) false fun n s =>
      s.compareAt t n ((s.seq t).reg h.a) ((s.seq t).reg h.b)

def execCmpi (t : Nat) (f : Enc RI) (s : State) : Out :=
  match f with
  | .w g => issue t (.cmpi t f) s (g.rd ≠ 0) false fun n s =>
      s.compareAt t n ((s.seq t).reg g.rs1) (g.imm.signExtend 32)
  | .c h => issue t (.cmpi t f) s false false fun n s => s.compareAt t n ((s.seq t).reg h.a) h.imm6

def execLui (t : Nat) (f : UF) (s : State) : Out :=
  issue t (.lui t f) s false false fun n s => s.result t n f.rd (f.imm.zeroExtend 32 <<< 11)

/-- SELC: rs1 where the condition FN holds, else rs2; conditions 13 to 15 are illegal (R44). -/
def execSelc (t : Nat) (f : RR) (s : State) : Out :=
  issue t (.selc t f) s (f.hi ≠ 0 || !condLegal f.fn.toNat) false fun n s =>
    let q := s.seq t
    s.result t n f.rd (if q.holds f.fn.toNat then q.reg f.rs1 else q.reg f.rs2)

/-! ## Loads and stores (R36, R187, R191, R228, R231) -/

/-- A sequencer load of width W: LS_RANGE beyond 0xFFFF or misaligned, LOAD_ECC at an uncorrectable word. -/
def State.load (s : State) (t n : Nat) (rd : BitVec 4) (w : Nat) (a : Word) : State :=
  let k := wBytes w
  if lsBad a k then s.syncTrap t 0x03 a
  else
    let p := (s.tile t).pad
    if p.bad a.toNat k then s.loadEcc t a.toNat k
    else (s.readEffects t a.toNat k).result t n rd (loadValue w (p.bytes a.toNat k))

/-- A sequencer store: to the queue status words it changes nothing, and to a QHEAD word it releases (R228, R231). -/
def State.storeAt (s : State) (t a : Nat) (bs : List Byte) : State :=
  if 0xFF20 ≤ a && a < 0xFF40 then s.storeHead t ((a - 0xFF20) / 4)
  else if (0xFF00 ≤ a && a < 0xFF20) || (0xFF68 ≤ a && a < 0xFF6C) then s
  else s.padWrite t a bs

def State.store (s : State) (t n w : Nat) (a v : Word) : State :=
  let k := wBytes w
  if lsBad a k then s.syncTrap t 0x03 a
  else (s.storeAt t a.toNat (leBytes k v.toNat)).advance t n

def execLd (t : Nat) (f : Enc MF) (s : State) : Out :=
  match f with
  | .w g => issue t (.ld t f) s (g.z ≠ 0) false fun n s =>
      s.load t n g.rd g.w.toNat ((s.seq t).reg g.rs1 + g.imm.signExtend 32)
  | .c h => issue t (.ld t f) s false false fun n s =>
      s.load t n h.a 2 ((s.seq t).reg h.b + BitVec.ofNat 32 (4 * h.c.toNat))

def execSt (t : Nat) (f : Enc MF) (s : State) : Out :=
  match f with
  | .w g => issue t (.st t f) s (g.z ≠ 0 || g.w = 3) false fun n s =>
      s.store t n g.w.toNat ((s.seq t).reg g.rs1 + g.imm.signExtend 32) ((s.seq t).reg g.rd)
  | .c h => issue t (.st t f) s false false fun n s =>
      s.store t n 2 ((s.seq t).reg h.b + BitVec.ofNat 32 (4 * h.c.toNat)) ((s.seq t).reg h.a)

/-! ## Branches and jumps (R42) -/

/-- BCC and C.BCC: PC + 2 × the offset where the condition holds; conditions 13 to 15 are illegal. -/
def execBcc (t : Nat) (f : Enc BF) (s : State) : Out :=
  let go := fun (cond : BitVec 4) (imm : Word) =>
    let taken := (s.seq t).holds cond.toNat
    issue t (.bcc t f) s (!condLegal cond.toNat) taken fun n s =>
      if taken then s.jumpTo t ((s.seq t).pc + (imm <<< 1)) id else s.advance t n
  match f with
  | .w g => go g.cond (g.imm.signExtend 32)
  | .c h => go h.a h.imm6

/-- JAL links PC + 4; C.J does not link. -/
def execJal (t : Nat) (f : Enc UF) (s : State) : Out :=
  match f with
  | .w g => issue t (.jal t f) s false true fun _ s =>
      let pc := (s.seq t).pc
      s.jumpTo t (pc + (g.imm.signExtend 32 <<< 1)) fun q => q.setReg g.rd (pc + 4)
  | .c h => issue t (.jal t f) s false true fun _ s => s.jumpTo t ((s.seq t).pc + (h.imm10 <<< 1)) id

/-- JALR links PC + 4 and clears bit 0 of the target; C.JR does not link. -/
def execJalr (t : Nat) (f : Enc RI) (s : State) : Out :=
  match f with
  | .w g => issue t (.jalr t f) s false true fun _ s =>
      let q := s.seq t
      s.jumpTo t ((q.reg g.rs1 + g.imm.signExtend 32) &&& 0xFFFFFFFE) fun r => r.setReg g.rd (q.pc + 4)
  | .c h => issue t (.jalr t f) s (h.a ≠ 0 || h.c ≠ 0) true fun _ s =>
      s.jumpTo t ((s.seq t).reg h.b &&& 0xFFFFFFFE) id

/-! ## Special registers (R37, R38, R58, R61) -/

/-- MFS of register `num`: its value, and what the read does besides. -/
def State.readSpecial (s : State) (t n num : Nat) (rd : BitVec 4) : State :=
  match s.mfs t num with
  | none => s
  | some v =>
    let timer := s.timer t
    let g := s.gtime (fieldOf t)
    (s.modTile t (·.modSeq (·.mfsEffect num timer g))).result t n rd v

def execMfs (t : Nat) (f : Enc SF) (s : State) : Out :=
  match f with
  | .w g => issue t (.mfs t f) s (g.rs1 ≠ 0 || g.z ≠ 0 || (s.mfs t g.num.toNat).isNone) false fun n s =>
      s.readSpecial t n g.num.toNat g.rd
  | .c h => issue t (.mfs t f) s ((s.mfs t h.low6).isNone) false fun n s => s.readSpecial t n h.low6 h.a

def execMts (t : Nat) (f : SF) (s : State) : Out :=
  issue t (.mts t f) s (f.rd ≠ 0 || f.z ≠ 0 || ((s.seq t).mts f.num.toNat 0).isNone) false fun n s =>
    (s.modTile t (·.modSeq fun q => (q.mts f.num.toNat (q.reg f.rs1)).getD q)).advance t n

/-! ## Descriptors, waits and tokens (R42, R48 to R51, R69) -/

/-- The sequencer stalls in `w`; its PC stays at the instruction (R51). -/
def State.waitIn (s : State) (t : Nat) (w : Wait) : State := s.modTile t (·.modSeq fun q => { q with wait := w })

/-- Place the descriptor at `off` in an engine's queue, with TAG's iteration and the tile's COURSE (R48, R65, R75). -/
def Tile.addDesc (x : Tile) (vec : Bool) (off : Nat) : Tile :=
  let e := x.seq.charged
  let d : Desc := { off := off, tag := mkTag x.course (tagIter x.seq.tag), entry := e }
  (x.modEng fun g => if vec then { g with vec := g.vec ++ [d] } else { g with mat := g.mat ++ [d] }).charge e
    fun m => { m with desc := m.desc + 1 }

/-- EDESC with its operands legal: stalled while the queue of 4 is full (R48). -/
def State.edesc (s : State) (t n : Nat) (f : RR) : State :=
  let x := s.tile t
  let a := x.seq.reg f.rs1
  let vec := f.fn = 1
  let q := if vec then x.eng.vec else x.eng.mat
  if 0xFFFF < a.toNat then s.syncTrap t 0x03 a
  else if a.toNat % 32 ≠ 0 then s.syncTrap t 0x01 (encRR 0x12 f)
  else if 4 ≤ q.length then s.waitIn t (.stall (.edesc f))
  else ((s.modTile t (·.addDesc vec a.toNat)).waitIn t .none).advance t n

def execEdesc (t : Nat) (f : RR) (s : State) : Out :=
  issue t (.edesc t f) s (f.hi ≠ 0 || f.rd ≠ 0 || f.rs2 ≠ 0 || 2 ≤ f.fn.toNat) false fun n s => s.edesc t n f

/-- WAITE's condition: no descriptor outstanding on the engines named. -/
def Tile.engIdle (x : Tile) (mask : Nat) : Bool :=
  (mask % 2 = 0 || x.eng.mat.isEmpty) && (mask / 2 % 2 = 0 || x.eng.vec.isEmpty)

def State.waite (s : State) (t n mask : Nat) : State :=
  if (s.tile t).engIdle mask then (s.waitIn t .none).advance t n else s.waitIn t (.waite mask)

/-- WAITE and C.WAITE; presented again while it waits, it ends the wait when its condition holds. -/
def execWaite (t : Nat) (f : Enc RR) (s : State) : Out :=
  match f with
  | .w g =>
    issueAs (.waite g.fn.toNat) t (.waite t f) s
      (g.hi ≠ 0 || g.rd ≠ 0 || g.rs1 ≠ 0 || g.rs2 ≠ 0 || g.fn = 0 || 4 ≤ g.fn.toNat) false
      fun n s => s.waite t n g.fn.toNat
  | .c h =>
    issueAs (.waite h.a.toNat) t (.waite t f) s (h.a = 0 || 4 ≤ h.a.toNat || h.b ≠ 0 || h.c ≠ 0) false
      fun n s => s.waite t n h.a.toNat

/-- One read of a WAITW's word: the wait ends when a bit of the mask is set (R49, R187). -/
def State.pollw (s : State) (t n : Nat) (rd : BitVec 4) (a : Nat) (mask : Word) : State :=
  let p := (s.tile t).pad
  if p.bad a 4 then s.loadEcc t a 4
  else
    let v := p.word a
    let s := s.readEffects t a 4
    if v &&& mask = 0 then s.waitIn t (.waitw rd a mask) else (s.waitIn t .none).result t n rd v

def execWaitw (t : Nat) (f : RR) (s : State) : Out :=
  issue t (.waitw t f) s (f.hi ≠ 0 || f.fn ≠ 0) false fun n s =>
    let q := s.seq t
    let a := q.reg f.rs1
    if lsBad a 4 then s.syncTrap t 0x03 a else s.pollw t n f.rd a.toNat (q.reg f.rs2)

/-- A later poll of a waiting WAITW (R49); it has no effect where none waits, or where a trap or STOP is due first. -/
def execWaitwPoll (t : Nat) (s : State) : Out :=
  onTile t s fun s =>
    match (s.seq t).wait with
    | .waitw rd a mask =>
      if { s.seq t with wait := .none }.canIssue then .next (s.pollw t 4 rd a mask) else .next s
    | _ => .next s

/-- EMIT into the local token buffer: stalled while the buffer is full (R50, R65, R68, R69). -/
def State.emitTok (s : State) (t n slot : Nat) (v : Word) (iter : BitVec 12) (op : Stallable) : State :=
  match s.putLocal t ⟨slot, mkTag (s.tile t).course iter, v, none⟩ with
  | some s => (s.waitIn t .none).advance t n
  | none => s.waitIn t (.stall op)

def State.emitW (s : State) (t n : Nat) (f : RR) : State :=
  let q := s.seq t
  s.emitTok t n (f.fn.toNat + 8) (q.reg f.rs1)
    (if f.hi.getLsbD 0 then (q.reg f.rs2).setWidth 12 else tagIter q.tag) (.emitW f)

def State.emitC (s : State) (t n : Nat) (h : CHalf) : State :=
  let q := s.seq t
  s.emitTok t n h.a.toNat (q.reg h.b) (tagIter q.tag) (.emitC h)

/-- EMIT and C.EMIT. Bit 23 chooses the tag; rs2, where it is not used, must be 0 (R41, R50). -/
def execEmit (t : Nat) (f : Enc RR) (s : State) : Out :=
  match f with
  | .w g => issue t (.emit t f) s
      (2 ≤ g.hi.toNat || 8 ≤ g.fn.toNat || g.rd ≠ 0 || (g.hi = 0 && g.rs2 ≠ 0)) false fun n s => s.emitW t n g
  | .c h => issue t (.emit t f) s (h.a.toNat < 8 || h.c ≠ 0) false fun n s => s.emitC t n h

/-! ## SYS (R55 to R57) -/

def sysBad (f : RR) : Bool := f.rd ≠ 0 || f.rs1 ≠ 0 || f.rs2 ≠ 0
def csysBad (h : CHalf) : Bool := h.b ≠ 0 || h.c ≠ 0

/-- Does DONE end a handler or the entry routine: not the trap handler of a trap taken in IDLE, which simply ends (R56,
R57)? -/
def Seq.endsRun (q : Seq) : Bool := q.state ≠ .trap || q.interrupted ≠ .idle

/-- DONE ends the handler, the entry routine, or a trap handler with what it interrupted (R54 to R56). -/
def Tile.done (x : Tile) : Tile :=
  (x.endHandler .idle).modSeq fun q =>
    { q with lastDone := if x.seq.endsRun then q.pc.setWidth 13 else q.lastDone }

def execDoneHandler (t : Nat) (f : Enc RR) (s : State) : Out :=
  issue t (.doneHandler t f) s (match f with | .w g => sysBad g || g.hi ≠ 0 | .c h => csysBad h) true
    fun _ s => s.modTile t (·.done)

/-- TRAP: cause SOFTWARE with imm9; TRAPPC holds the address of the next instruction (R57). -/
def execTrapSoft (t : Nat) (f : RR) (s : State) : Out :=
  issue t (.trapSoft t f) s (sysBad f) true fun n s =>
    let q := s.seq t
    if q.trapEn then s.enterTrap t 0x06 ((q.pc + BitVec.ofNat 32 n).setWidth 13) (f.hi.signExtend 32) 0 0
    else s.doubleTrap t 0x06

/-- Return from a trap (R56): entry enabled, TRAPPC and the interrupted state restored; IDLE fetches nothing. -/
def Seq.returnTrap (q : Seq) : Seq :=
  { q with trapEn := true, state := q.interrupted, wdog := 0,
           pc := if q.interrupted = .idle then q.pc else q.trapPc.zeroExtend 32 }

/-- RTT is illegal outside state TRAP (R56). -/
def execRtt (t : Nat) (f : Enc RR) (s : State) : Out :=
  issue t (.rtt t f) s
    ((s.seq t).state ≠ .trap || (match f with | .w g => sysBad g || g.hi ≠ 0 | .c h => csysBad h)) true
    fun _ s => s.modTile t (·.modSeq (·.returnTrap))

/-- HALT is legal only in the entry routine: STOPPED, and the queues close (R55, R233). -/
def execHalt (t : Nat) (f : RR) (s : State) : Out :=
  issue t (.halt t f) s ((s.seq t).state ≠ .entry || sysBad f || f.hi ≠ 0) true fun _ s =>
    (s.modTile t (·.endHandler .stopped)).closeQueues t .readerGone

def execCNop (t : Nat) (h : CHalf) (s : State) : Out :=
  issue t (.cNop t h) s (csysBad h) false fun n s => s.advance t n

end Sys2Proof.Machine
end

