-- ==== Sys2Proof/Machine/RemoteIssue.lean ====
section
/-! DEFINITION. The issue of remote operations by the sequencer: the checks of R47, the stalls of R47 and R181, FENCE,
and the end of a blocking ATOMIC (Table 02.6, R213 to R227). -/

namespace Sys2Proof.Machine

/-! ## The checks of R47, in their order -/

/-- Table 02.6's columns for a kind: does it take a length in rb, may rd be other than s0, what SUB may hold. -/
def rmoHasLen (k : RmoKind) : Bool := k = .put || k = .get || k = .send || k = .putReduce

def rmoSubBad (k : RmoKind) (sub : BitVec 4) : Bool :=
  match k with
  | .atomic => 4 < sub.toNat % 8
  | .putReduce => 1 < sub.toNat
  | _ => sub ≠ 0

/-- Register numbers that Table 02.6 constrains. -/
def rmoRegBad (k : RmoKind) (x : XF) : Bool :=
  x.hi ≠ 0 || rmoSubBad k x.sub || x.ra.getLsbD 0
    || (match k with
      | .atomic => (x.sub = 4 && x.rb.getLsbD 0) || (x.sub.getLsbD 3 && x.rd ≠ 0)
      | .putReduce => x.rb.getLsbD 0 || x.rd ≠ 0
      | .signal | .flowReset => x.rb ≠ 0 || x.rd ≠ 0
      | _ => x.rd ≠ 0)

/-- The length in `[24:16]` of rb. -/
def rbLen (v : Word) : Nat := bitsW v 16 9

/-- Register contents that Table 02.6 constrains: a length of 0 or above 256, or a nonzero rb `[31:25]`. -/
def rmoLenBad (k : RmoKind) (v : Word) : Bool :=
  rmoHasLen k && (rbLen v = 0 || 256 < rbLen v || bitsW v 25 7 ≠ 0)

/-- ra and ra + 1 as an address. -/
def Seq.rmoAddr (q : Seq) (x : XF) : BitVec 48 := (q.reg (x.ra + 1)).setWidth 16 ++ q.reg x.ra

/-- The spaces that Table 10.1 permits. -/
def rmoSpaceOk (k : RmoKind) (sp : Nat) : Bool :=
  match k with
  | .put | .get => sp = 0 || sp = 1 || sp = 3 || sp = 4 || sp = 5
  | .atomic | .signal => sp = 0 || sp = 3 || sp = 4 || sp = 5
  | .send => sp = 2 || sp = 5
  | .flowReset => sp < 6
  | .putReduce => sp = 0 || sp = 5

/-- The conditions that R214 assigns to cause 0x05. -/
def rmoR214Bad (k : RmoKind) (x : XF) (a : BitVec 48) (v : Word) : Bool :=
  match k with
  | .putReduce => rbLen v % 4 ≠ 0
  | .atomic => spaceOf a = 4 && (x.sub.toNat % 8 = 1 || x.sub.toNat % 8 = 2)
  | .send => addrOff a < 0x10 || 0x17 < addrOff a
  | _ => false

/-- The cause of the first check of R47 that fails, if one does. -/
def Seq.rmoCause (q : Seq) (k : RmoKind) (x : XF) : Option Nat :=
  let a := q.rmoAddr x
  let v := q.reg x.rb
  if rmoRegBad k x || rmoLenBad k v then some 0x01
  else if !rmoSpaceOk k (spaceOf a) || rmoR214Bad k x a v then some 0x05
  else if addrReserved a then some 0x05
  else if addrNoTile a then some 0x04
  else none

/-! ## Entering the issue buffer -/

def atomic64 (k : RmoKind) (x : XF) : Bool := k = .atomic && x.sub.getLsbD 3

/-- Bytes of an operation: its length, 4 or 8 for an ATOMIC, 4 for a SIGNAL, 0 for a FLOW_RESET. -/
def rmoLen (k : RmoKind) (x : XF) (v : Word) : Nat :=
  match k with
  | .atomic => if x.sub.getLsbD 3 then 8 else 4
  | .signal => 4
  | .flowReset => 0
  | _ => rbLen v

/-- The operands of a 32-bit ATOMIC: the operand, or the new value and the compare value (Table 02.6). -/
def Seq.rmoOpnd (q : Seq) (k : RmoKind) (x : XF) : List Byte :=
  if k = .atomic && !x.sub.getLsbD 3 then
    leBytes 4 (q.reg x.rb).toNat ++ (if x.sub = 4 then leBytes 4 (q.reg (x.rb + 1)).toNat else [])
  else []

/-- The operation an RMO issues, with the buffer entry it takes. -/
def State.rmoOp (s : State) (t id : Nat) (k : RmoKind) (x : XF) : IssueOp :=
  let y := s.tile t
  let q := y.seq
  let v := q.reg x.rb
  let a := q.rmoAddr x
  { id := id, kind := k, dest := destOf s.mgmt.engId a, vc := if k = .putReduce then 2 else 0, addr := a,
    len := rmoLen k x v, loc := bitsW v 0 16, sub := x.sub, opnd := q.rmoOpnd k x, rb := v,
    rid := if k = .putReduce then bitsW (q.reg (x.rb + 1)) 0 16 else 0, tag := mkTag y.course (tagIter q.tag),
    entry := q.charged, lands := k = .get || atomic64 k x, epoch := s.routes.epoch }

/-- A GET or 64-bit ATOMIC waits at issue for a consumer entry, or for a free scoreboard entry (R180, R181). -/
def Tile.landStall (y : Tile) (now : Nat) (o : IssueOp) : Bool :=
  let p := y.pad.issueView now
  o.lands && (p.consumerHit o.landing.1 o.landing.2
    || ((y.pad.landPlace o.landing.1 o.landing.2).isNone && p.freeEntries = 0))

/-- Its landing range enters the scoreboard, and the operation keeps the place (R179). -/
def State.declareLanding (s : State) (t : Nat) (o : IssueOp) : State × IssueOp :=
  if o.lands then
    let r := (s.tile t).pad.declare s.now o.landing.1 o.landing.2
    (s.modTile t (·.modPad fun _ => r.1), { o with place := r.2 })
  else (s, o)

/-- An RMO whose operands are legal: it stalls, or enters the issue buffer, and a blocking 32-bit ATOMIC holds the
sequencer until its answer (R47). -/
def State.rmo (s : State) (t n : Nat) (k : RmoKind) (x : XF) : State :=
  let y := s.tile t
  match y.seq.rmoCause k x with
  | some 0x01 => s.syncTrap t 0x01 (encXF k.code x)
  | some c => s.syncTrap t c (addrHigh (y.seq.rmoAddr x))
  | none =>
    match y.ni.freeId with
    | none => s.waitIn t (.stall (.rmo k x))
    | some id =>
      let o := s.rmoOp t id k x
      if y.landStall s.now o then s.waitIn t (.stall (.rmo k x))
      else
        let (s, o) := s.declareLanding t o
        if k = .atomic && !x.sub.getLsbD 3 && x.rd ≠ 0 then (s.waitIn t (.atomic id x.rd)).enterOp t o
        else ((s.waitIn t .none).advance t n).enterOp t o

def execRmoPut (t : Nat) (x : XF) (s : State) : Out :=
  issue t (.rmoPut t x) s false false fun n s => s.rmo t n .put x

def execRmoGet (t : Nat) (x : XF) (s : State) : Out :=
  issue t (.rmoGet t x) s false false fun n s => s.rmo t n .get x

def execRmoAtomic (t : Nat) (x : XF) (s : State) : Out :=
  issue t (.rmoAtomic t x) s false false fun n s => s.rmo t n .atomic x

def execRmoSignal (t : Nat) (x : XF) (s : State) : Out :=
  issue t (.rmoSignal t x) s false false fun n s => s.rmo t n .signal x

def execRmoSend (t : Nat) (x : XF) (s : State) : Out :=
  issue t (.rmoSend t x) s false false fun n s => s.rmo t n .send x

def execFlowReset (t : Nat) (x : XF) (s : State) : Out :=
  issue t (.flowReset t x) s false false fun n s => s.rmo t n .flowReset x

def execRmoPutReduce (t : Nat) (x : XF) (s : State) : Out :=
  issue t (.rmoPutReduce t x) s false false fun n s => s.rmo t n .putReduce x

/-! ## Waiting for the buffer -/

/-- FENCE holds the sequencer until every operation in the issue buffer has been answered (R47, R221). -/
def State.fence (s : State) (t n : Nat) : State :=
  if (s.tile t).ni.ops.isEmpty then (s.waitIn t .none).advance t n else s.waitIn t .fence

/-- FENCE and C.SYS FENCE; presented again while it waits, it ends the wait when the buffer is empty. -/
def execFence (t : Nat) (f : Enc XF) (s : State) : Out :=
  issueAs .fence t (.fence t f) s
    (match f with
      | .w x => x.rd ≠ 0 || x.ra ≠ 0 || x.rb ≠ 0 || x.sub ≠ 0 || x.hi ≠ 0
      | .c h => csysBad h) false fun n s => s.fence t n

/-- The stalled instruction issues now, or stalls on (R51). -/
def State.retryStall (s : State) (t : Nat) (op : Stallable) : State :=
  match op with
  | .rmo k x => s.rmo t 4 k x
  | .edesc f => s.edesc t 4 f
  | .emitW f => s.emitW t 4 f
  | .emitC h => s.emitC t 2 h

/-- A stalled RMO, EDESC or EMIT resumes when there is room; no effect where none is stalled. -/
def execStallRelease (t : Nat) (s : State) : Out :=
  onTile t s fun s =>
    match (s.seq t).wait with
    | .stall op => if { s.seq t with wait := .none }.canIssue then .next (s.retryStall t op) else .next s
    | _ => .next s

/-- A STOP that waited for the blocking ATOMIC takes effect at the boundary after it (R55). -/
def State.boundary (s : State) (t : Nat) : State :=
  if (s.seq t).stopPend then s.modTile t (·.stopNow) else s

/-- The answer of a blocking 32-bit ATOMIC writes rd and releases the sequencer (R47). Where it failed no old value came
back: rd holds a free value (log 9). -/
def execAtomicResult (t : Nat) (s : State) : Out :=
  onTile t s fun s =>
    match (s.seq t).wait with
    | .atomicDone rd (some v) => .next (((s.waitIn t .none).result t 4 rd v).boundary t)
    | .atomicDone rd none =>
      let f := s.freeWord
      .next (((f.2.waitIn t .none).result t 4 rd f.1).boundary t)
    | _ => .next s

end Sys2Proof.Machine
end

