-- ==== Sys2Proof/Machine/TileControl.lean ====
section
/-! DEFINITION. Asynchronous traps, the watchdog, START and STOP, and the tile control registers of space 1 (R52, R53,
R55 to R63, R78, R79, R229, R447). -/

namespace Sys2Proof.Machine

/-! ## Asynchronous traps and the watchdog (R51, R57, R59, R61) -/

/-- A blocking ATOMIC, which no trap interrupts (R51). -/
def Wait.blocking : Wait → Bool
  | .atomic .. | .atomicDone .. => true
  | _ => false

/-- May an asynchronous trap be taken now: code runs or the sequencer is IDLE, entry is enabled, a cause is pending? -/
def Seq.mayTrap (q : Seq) : Bool :=
  (q.state = .entry || q.state = .idle || q.state = .handler || q.state = .trap) && q.trapEn && !q.wait.blocking
    && !q.stopPend

/-- TRAPPC of an asynchronous trap: the next instruction, or the one that waits; in IDLE the DONE that ended last (R57). -/
def Seq.asyncPc (q : Seq) : BitVec 13 := if q.state = .idle then q.lastDone else q.pc.setWidth 13

/-- The lowest pending cause is entered at an instruction boundary; no effect where none may be. -/
def execTrapEntry (t : Nat) (s : State) : Out :=
  onTile t s fun s =>
    let q := s.seq t
    match PendTrap.lowest q.pend with
    | some p =>
      if q.mayTrap then
        .next ((s.modTile t (·.modSeq fun q => { q with pend := q.pend.filter (·.cause ≠ p.cause) })).enterTrap t p.cause
          q.asyncPc p.val p.info p.arg)
      else .next s
    | none => .next s

/-- The watchdog count has reached its limit: cause 0x0D becomes pending, or is a double trap (R59, R61). -/
def execSeqWatchdog (t : Nat) (s : State) : Out :=
  onTile t s fun s =>
    let q := s.seq t
    if (q.state = .entry || q.state = .handler || q.state = .trap) && q.wdogLimit ≤ q.wdog then
      if !q.trapEn then .next (s.doubleTrap t 0x0D)
      else if q.pend.any (·.cause = 0x0D) then .next s
      else .next (s.asyncTrap t 0x0D (BitVec.ofNat 32 q.wdogLimit) 0 q.wdogLimit)
    else .next s

/-! ## START (R53, R78, R79, R229) -/

/-- The slots an action uses, in operand order. -/
def Tile.usedSlots (x : Tile) (n : Nat) : List Nat := (List.range (x.actNops n)).map (x.actSlot n)

def dupFree : List Nat → Bool
  | [] => true
  | a :: l => !l.contains a && dupFree l

/-- Does action `n` break a rule of R53? -/
def Tile.actBad (x : Tile) (n : Nat) : Bool :=
  let used := x.usedSlots n
  x.actValid n &&
    (!dupFree used
      || ((List.range 32).any fun m => m ≠ n && x.actValid m && (x.usedSlots m).any used.contains)
      || ((List.range 4).any fun i => x.actNops n ≤ i && x.actSlot n i ≠ 0)
      || (bitW (x.act0 n) 28 && bitsW (x.act0 n) 29 2 = 0)
      || bitW (x.act0 n) 13)

/-- The steering rules as the scratchpad holds them (R78). -/
def Tile.readRules (x : Tile) : List (Word × Word) :=
  (List.range 4).map fun k => (x.pad.word (0xFFE0 + 8 * k), x.pad.word (0xFFE4 + 8 * k))

def ruleD (r : Word × Word) : Nat := bitsW r.1 24 4
def ruleC (r : Word × Word) : Nat := bitsW r.1 20 4
/-- Target byte i of a rule. -/
def ruleTgt (r : Word × Word) (i : Nat) : Nat := bitsW r.2 (8 * i) 8

/-- Is a target byte malformed: a reserved bit, a delivering target below 8 or on a slot that a rule uses (R79), or a
discarding target whose slot field is not the 0 that Table 03.4 gives it (DESIGN CHOICE: R79 does not list it, log 77)? -/
def tgtBad (rules : List (Word × Word)) (b : Nat) : Bool :=
  bitsN b 4 3 ≠ 0
    || (if bitsN b 7 1 = 1 then b % 16 < 8 || rules.any (ruleNames · (b % 16)) else b % 16 ≠ 0)

/-- Does rule `k` break a rule of R79? -/
def ruleBad (rules : List (Word × Word)) (k : Nat) : Bool :=
  let r := rules.getD k (0, 0)
  bitW r.1 31 &&
    (ruleD r = ruleC r
      || ((List.range 4).any fun j => j ≠ k && (ruleNames (rules.getD j (0, 0)) (ruleD r)
            || ruleNames (rules.getD j (0, 0)) (ruleC r)))
      || ((List.range 4).any fun i => tgtBad rules (ruleTgt r i))
      || (!bitW r.1 30 && bitsW r.2 16 16 ≠ 0)
      || bitsW r.1 28 2 ≠ 0 || bitsW r.1 0 20 ≠ 0)

def Tile.qcfg (x : Tile) (i : Nat) : Word := x.pad.word (0xFF40 + 4 * i)
def Tile.qcomb0 (x : Tile) : Word := x.pad.word 0xFF60
def Tile.qcomb1 (x : Tile) : Word := x.pad.word 0xFF64
/-- Is q7 configured as a combining queue? -/
def Tile.cfgComb (x : Tile) : Bool := bitW (x.qcfg 7) 1

/-- Does queue `i`'s configuration break a rule of R229? -/
def Tile.qcfgBad (x : Tile) (i : Nat) : Bool :=
  let c := x.qcfg i
  bitsW c 2 30 ≠ 0 || (bitW c 1 && (i ≠ 7 || !bitW c 0))
    || (i = 7 && bitW c 1 &&
        (bitsW x.qcomb1 9 23 ≠ 0 || bitsW x.qcomb0 17 15 = 0 || bitsW x.qcomb1 0 9 < 4 || 256 < bitsW x.qcomb1 0 9
          || bitsW x.qcomb1 0 9 % 4 ≠ 0))

/-- TRAPVAL of a rejected START: the first offending action, rule or queue (R53, R79, R229). -/
def Tile.startFault (x : Tile) : Option Nat :=
  match (List.range 32).find? x.actBad with
  | some n => some n
  | none =>
    match (List.range 4).find? (ruleBad x.readRules) with
    | some k => some (32 + k)
    | none => ((List.range 8).find? x.qcfgBad).map (36 + ·)

/-- A queue opens empty, with the next GEN (R229). -/
def Tile.openQueue (x : Tile) (i : Nat) (comb : Bool) : Tile :=
  let q := x.queue i
  let x := x.setQueue i { q with isOpen := true, comb := comb, gen := (q.gen + 1) % 4, arrived := 0, msgs := [],
                                 grants := [], waits := [] }
  let x := if comb then { x with comb := { decl0 := x.qcomb0, decl1 := x.qcomb1 } } else x
  x.syncQueue i

/-- Set up queue `i` at START (R229). -/
def State.startQueue (s : State) (t i : Nat) : State :=
  let x := s.tile t
  let q := x.queue i
  let opens := bitW (x.qcfg i) 0
  let comb := i = 7 && x.cfgComb
  let keeps := q.isOpen && opens && q.comb = comb
    && (!comb || (x.comb.decl0 = x.qcomb0 && x.comb.decl1 = x.qcomb1))
  if keeps then s
  else
    let s := if q.isOpen then s.closeQueue t i .readerGone else s
    if opens then s.modTile t (·.openQueue i comb) else s

/-- START: no effect unless STOPPED; the tables are checked, and the entry routine runs or the start is rejected. -/
def State.doStart (s : State) (t : Nat) : State :=
  let x := s.tile t
  if x.seq.state ≠ .stopped then s
  else match x.startFault with
    | some v =>
      (s.modTile t (·.modSeq fun q => { q with actErr := true, trapCause := 0x0F, trapVal := BitVec.ofNat 32 v,
                                               trapInfo := 0, trapPc := q.entry, trapLost := 0 })).tileEvent t 0x0101 0x0F
    | none =>
      let s := s.modTile t fun x =>
        (x.modDf fun d => { d with rules := x.readRules }).modSeq fun q =>
          { q with state := .entry, pc := q.entry.zeroExtend 32, tag := 0, running := none, trapEn := true,
                   trapLost := 0, wdog := 0, wait := .none, stopPend := false, interrupted := .idle }
      (List.range 8).foldl (fun s i => s.startQueue t i) s

def execStart (t : Nat) (s : State) : Out := onTile t s fun s => .next (s.doStart t)

/-! ## STOP (R55) -/

/-- STOP takes effect at the next instruction boundary: at once, or after a blocking ATOMIC. -/
def State.doStop (s : State) (t : Nat) : State :=
  let q := s.seq t
  if q.state = .stopped || q.state = .trapped then s
  else if q.wait.blocking then s.modTile t (·.modSeq fun q => { q with stopPend := true })
  else s.modTile t (·.stopNow)

def execStop (t : Nat) (s : State) : Out := onTile t s fun s => .next (s.doStop t)

/-! ## Space 1 (R62, R63, R82, R201, R237, Table 02.10) -/

def SeqState.code : SeqState → Nat
  | .stopped => 0 | .entry => 1 | .idle => 2 | .handler => 3 | .trap => 4 | .trapped => 5

/-- TILE_STATUS.WAITING: a wait of R51, or an access that the sequencer cannot end itself. -/
def Wait.waits : Wait → Bool
  | .none => false
  | _ => true

/-- TILE_STATUS (Table 02.13). -/
def Seq.status (q : Seq) : Word :=
  BitVec.ofNat 32 (q.trapLost * 2 ^ 24 + q.action * 2 ^ 13 + (if q.actErr then 2 ^ 8 else 0)
    + (if q.wait.waits then 2 ^ 7 else 0) + q.state.code)

/-- Is the offset one of Table 02.10's? -/
def regListed (off : Nat) : Bool :=
  off % 4 = 0 &&
    (off ≤ 0x18 || off = 0x20 || off = 0x24 || off = 0x30 || off = 0x34 || off = 0x38 || (0x100 ≤ off && off < 0x140)
      || (0x400 ≤ off && off < 0x500) || (0x2000 ≤ off && off < 0x4000))

/-- Is the offset in the action table or the instruction store, which only a STOPPED tile lets be written? -/
def regStore (off : Nat) : Bool := (0x400 ≤ off && off < 0x500) || (0x2000 ≤ off && off < 0x4000)

/-- A 32-bit read of space 1; WO and reserved fields read 0 (R9). -/
def State.regRead (s : State) (t off : Nat) : Word :=
  let x := s.tile t
  let q := x.seq
  if off = 0x00 then BitVec.ofNat 32 t
  else if off = 0x04 then BitVec.ofNat 32 (q.entry.toNat * 65536)
  else if off = 0x08 then q.status
  else if off = 0x0C then BitVec.ofNat 32 q.wdogLimit
  else if off = 0x10 then BitVec.ofNat 32 q.trapCause
  else if off = 0x14 then q.trapPc.zeroExtend 32
  else if off = 0x18 then q.trapVal
  else if off = 0x20 then BitVec.ofNat 32 (s.timer t)
  else if off = 0x24 then q.timerHi
  else if off = 0x30 then BitVec.ofNat 32 x.df.steerWait
  else if off = 0x34 then BitVec.ofNat 32 x.ni.sendWait
  else if off = 0x38 then BitVec.ofNat 32 x.rtr.arbWait
  else if 0x100 ≤ off && off < 0x140 then x.cntWord ((off - 0x100) / 4)
  else if 0x400 ≤ off && off < 0x500 then tGet 0 x.acts ((off - 0x400) / 4)
  else if 0x2000 ≤ off && off < 0x4000 then leWord (mBytes 0 x.istore (off - 0x2000) 4)
  else 0

/-- The TIMER_HI shadow that a read of TILE_TIMER_LO writes (R38, Table 02.10). Special register 6 and offset 0x0024 are
one shadow, which MFS TIMER_LO writes too (DESIGN CHOICE, log 76). -/
def State.latchTimer (s : State) (t : Nat) : State :=
  let v := s.timer t
  s.modTile t (·.modSeq fun q => { q with timerHi := BitVec.ofNat 32 (v / 2 ^ 32) })

/-- An action-table word as the fields of Table 02.8 keep it; reserved bits read 0. -/
def actWord (i : Nat) (v : Word) : Word := if i % 2 = 0 then v &&& 0xFFFFE000 else v &&& 0xFFFF0000

/-- A 32-bit write of space 1 by an agent that may make it: each field by its type, clamped where a range is given. An
RWI field is set by a Keystone alone. -/
def State.regWrite (s : State) (t off : Nat) (v : Word) (keystone : Bool) : State :=
  if off = 0x04 then
    let start := bitW v 0
    let stop := bitW v 1
    if start && stop then s
    else
      let s := s.modTile t (·.modSeq fun q => { q with entry := BitVec.ofNat 13 (bitsW v 17 12 * 2) })
      if start then s.doStart t else if stop then s.doStop t else s
  else if off = 0x08 then
    s.modTile t (·.modSeq fun q => { q with actErr := q.actErr && !bitW v 8 })
  else if off = 0x0C then s.modTile t (·.modSeq fun q => { q with wdogLimit := clampN 1024 2147483648 v.toNat })
  else if off = 0x30 then s.modTile t (·.modDf fun d => { d with steerWait := clampN 256 16777216 (bitsW v 0 25) })
  else if off = 0x34 then s.modTile t (·.modNi fun n => { n with sendWait := clampN 64 1048576 (bitsW v 0 21) })
  else if off = 0x38 then
    if keystone then s.modTile t (·.modRtr fun r => { r with arbWait := clampN 2 255 (bitsW v 0 8) }) else s
  else if 0x400 ≤ off && off < 0x500 then
    let i := (off - 0x400) / 4
    s.modTile t fun x => { x with acts := tSet 0 x.acts i (actWord i v) }
  else if 0x2000 ≤ off && off < 0x4000 then
    s.modTile t fun x => { x with istore := mPutBytes 0 x.istore (off - 0x2000) (leBytes 4 v.toNat) }
  else s

/-- A space-1 read of TILE_TIMER_LO (R38). -/
def execTileTimerLoRead (t : Nat) (s : State) : Out := onTile t s fun s => .next (s.latchTimer t)

/-- Land bytes of a content segment in a STOPPED tile (R271, R274). -/
def State.landSeg (s : State) (t dest off : Nat) (bs : List Byte) : State :=
  match dest with
  | 0 => s.padWrite t off bs
  | 1 => s.modTile t fun x => { x with istore := mPutBytes 0 x.istore off (bs.take (8192 - off)) }
  | _ => s.modTile t fun x => { x with acts := (List.range (bs.length / 4)).foldl (fun a i =>
      let k := off / 4 + i
      tSet 0 a k (actWord k (leWord ((bs.drop (4 * i)).take 4)))) x.acts }

end Sys2Proof.Machine
end

