-- ==== Sys2Proof/Machine/Arrive.lean ====
section
/-! DEFINITION. What a request does at its target: PUT, GET, ATOMIC, SIGNAL at a tile and at a Keystone, SEND, credit
requests and PUT REDUCE at a tile; traffic at a tile whose reset is held (R21, R62, R169, R177, R182, R187, R191, R214,
R215, R230 to R235, R248, R252, R287). -/

namespace Sys2Proof.Machine

/-! ## Taking a packet (R177, R182, R235) -/

/-- The first packet of a channel in a list of packets that have reached an interface. -/
def firstOn (vc : Nat) (ps : List Packet) : Option Packet := ps.find? (·.vc = vc)

/-- Remove the first occurrence of a packet. -/
def dropPacket (p : Packet) : List Packet → List Packet
  | [] => []
  | q :: qs => if q = p then qs else q :: dropPacket p qs

/-- The interface of tile `t` takes `p`: it is the first of its channel and no held write of the channel is before it. -/
def State.take (s : State) (t : Nat) (p : Packet) : Option State :=
  let x := s.tile t
  if firstOn p.vc x.ni.inbox = some p && (firstOn p.vc x.pad.held).isNone then
    some (s.modTile t (·.modNi fun n => { n with inbox := dropPacket p n.inbox }))
  else none

/-- A block takes `p` from the outward port of one of its attachment tiles. -/
def State.takeEdge (s : State) (b : Block) (p : Packet) : Option State :=
  match b.tiles.find? fun u => firstOn p.vc (tGet [] (s.tile u).rtr.wire b.dir.port) = some p with
  | some u => some (s.modTile u (·.modRtr fun r =>
      { r with wire := tPut r.wire b.dir.port (dropPacket p (tGet [] r.wire b.dir.port)) }))
  | none => none

/-- Is the tile held in span reset: its own bit, a tile that the map lists, or a usable tile of no span after the Glost pass
(R31, R242, R247, R265, R382)? -/
def State.isHeld (s : State) (t : Nat) : Bool :=
  (s.tile t).held || listedIn s.map.recs t || (s.mgmt.glostDone && (s.spanOf t).isNone)

/-! ## The bytes an operation addresses -/

/-- Bytes of a PUT, GET, ATOMIC or SIGNAL. -/
def reqLen (p : Packet) : Nat :=
  match p.op with
  | .atomic => if p.sub.getLsbD 3 then 8 else 4
  | .signal => 4
  | _ => p.len

/-- Must the offset be a multiple of the length (R215)? -/
def misaligned (p : Packet) : Bool := (p.op = .atomic || p.op = .signal) && addrOff p.addr % reqLen p ≠ 0

/-- Does the operation fall within the queue area and its control words (R215)? -/
def inQueueArea (a n : Nat) : Bool := a ≤ 0xFF7F && 0xF700 ≤ a + n - 1

/-- An operation of scratchpad bytes that R215 refuses with ADDRESS_FAULT. -/
def State.padFault (s : State) (t : Nat) (p : Packet) : Bool :=
  let a := addrOff p.addr
  0x10000 < a + reqLen p || misaligned p
    || (p.srcKind ≠ 1 && (s.seq t).state ≠ .stopped && inQueueArea a (reqLen p))

/-! ## Space 1 (R62, R215) -/

/-- Do `n` bytes at `off` lie wholly within the action table or the instruction store (Table 02.10)? -/
def storeRange (off n : Nat) : Bool :=
  (0x400 ≤ off && off + n ≤ 0x500) || (0x2000 ≤ off && off + n ≤ 0x4000)

/-- May the sender read and write the tile's registers: a Keystone over VC3, or a tile of the same span (R62)? Until the end of
the Glost pass any tile may read the instruction store and the action table (R275). -/
def State.regAgent (s : State) (t : Nat) (p : Packet) : Bool :=
  (p.op = .get && p.srcKind = 0 && p.srcEng = s.mgmt.engId && !s.mgmt.glostDone && storeRange (addrOff p.addr) p.len)
    || (p.srcKind = 1 && p.vc = 3) || (p.srcKind = 0 && p.srcEng = s.mgmt.engId && (s.spanOf t).isSome && p.span = s.spanId t)

def State.regFault (s : State) (t : Nat) (p : Packet) : Bool :=
  let off := addrOff p.addr
  !s.regAgent t p || !(p.op = .put || p.op = .get) || off % 4 ≠ 0 || !regListed off
    || !(p.len = 4 || (p.len % 4 = 0 && 0 < p.len && p.len ≤ 256 && storeRange off p.len))
    || (p.op = .put && regStore off && (s.seq t).state ≠ .stopped)

/-- Write the words of a PUT to space 1, in order. -/
def State.regPuts : Nat → State → Nat → Nat → List Byte → Bool → State
  | 0, s, _, _, _, _ => s
  | n + 1, s, t, off, bs, k => State.regPuts n (s.regWrite t off (leWord (bs.take 4)) k) t (off + 4) (bs.drop 4) k

/-! ## Performing at a tile -/

/-- The GET_RESP of `bs` to a request's sender. -/
def getResp (eng t : Nat) (p : Packet) (bs : List Byte) : Packet :=
  { op := .getResp, dest := p.srcTile, vc := 1, out := p.srcKind ≠ 0, flits := flitsOf .getResp bs.length,
    len := bs.length, opid := p.opid, serial := p.serial, srcTile := t, srcEng := eng, data := bs, deng := p.srcEng, seng := eng }

/-- The new value of an ATOMIC (R214): add, max, min, swap, compare-and-swap on signed numbers of `n` bits. -/
def atomicNew (n : Nat) (sub : Nat) (old v c : BitVec n) : BitVec n :=
  match sub with
  | 0 => old + v
  | 1 => if old.slt v then v else old
  | 2 => if v.slt old then v else old
  | 3 => v
  | _ => if old = c then v else old

/-- The word an ATOMIC or SIGNAL of `n` bytes writes, from the old one. -/
def rmwValue (p : Packet) (n : Nat) (old : BitVec 64) : BitVec 64 :=
  if p.op = .signal then ((old.setWidth 32 : BitVec 32) + 1).setWidth 64
  else
    let v := BitVec.ofNat 64 (leNat (p.data.take n))
    let c := BitVec.ofNat 64 (leNat ((p.data.drop 8).take n))
    if n = 8 then atomicNew 64 (p.sub.toNat % 8) old v c
    else (atomicNew 32 (p.sub.toNat % 8) (old.setWidth 32) (v.setWidth 32) (c.setWidth 32)).setWidth 64

/-- Write a word read and written in one access: an uncorrectable row stays so (R186). -/
def Pad.rmw (p : Pad) (a : Nat) (bs : List Byte) : Pad :=
  let q := p.putBytes a bs
  { q with ecc := q.ecc.filter fun e => e.2 = .double || !(rowsOf a bs.length).contains e.1 }

/-- ATOMIC and SIGNAL on the scratchpad (R169, R186, R187). -/
def State.performRmw (s : State) (t : Nat) (p : Packet) : State :=
  let a := addrOff p.addr
  let n := reqLen p
  let old := BitVec.ofNat 64 (leNat ((s.tile t).pad.bytes a n))
  let bad := (s.tile t).pad.bad a n
  let s := (s.readEffects t a n).modTile t (·.modPad (·.rmw a (leBytes n (rmwValue p n old).toNat)))
  if bad then s.answer t p .uncorrectable else s.answer t p .ok (if p.op = .atomic then old else 0)

/-- A SEND at its queue: closed or of an earlier GEN, stale, or stored (R66, R84, R230, R231, R233). -/
def State.performSend (s : State) (t : Nat) (p : Packet) : State :=
  let i := sendQueue p.addr
  let x := s.tile t
  let q := x.queue i
  let n := slotsFor p.data.length
  if !q.isOpen || q.gen ≠ p.gen then s.refuse t p (if s.isHeld t then .spanReset else .readerGone)
  else if q.comb then s.answer t p .addressFault
  else if tagCourse (s.admitTag t p) ≠ x.course then
    let m := runMask p.sub.toNat n
    (((s.stale t).inject t
      [{ creditRet s.mgmt.engId t i q.gen p.srcTile p.srcEng p.srcKind m with toSender := true }]).answer t p .staleCourse)
  else if x.pad.anyOff (0xF700 + 256 * i + 32 * p.sub.toNat) p.data.length then
    (s.countEvent t cDestOff 0x0303 (0xF700 + 256 * i + 32 * p.sub.toNat)
      (x.pad.offRows (0xF700 + 256 * i + 32 * p.sub.toNat) p.data.length)).answer t p .destOff
  else (s.storeMsg t i p).answer t p .ok

/-- A tile's combining queue adds one binary32 or int32 element (R112, R234); the additions of a network reduction need
not repeat, so the model's counter stands among the operands of the free value. -/
def addElem (int : Bool) (ctr i : Nat) (a b : Word) : Word × AFlags :=
  if int then (a + b, 0)
  else
    let r := add32 2 [ctr, i] a.toNat b.toNat
    (BitVec.ofNat 32 r.1, r.2)

/-- The element-wise sum of two payloads and the flags of its additions. -/
def addPayload (int : Bool) (ctr : Nat) (as bs : List Byte) : List Byte × AFlags :=
  (List.range (bs.length / 4)).foldl (fun r i =>
    let e := addElem int ctr i (leWord ((as.drop (4 * i)).take 4)) (leWord ((bs.drop (4 * i)).take 4))
    (r.1 ++ leBytes 4 e.1.toNat, r.2 ||| e.2)) ([], 0)

/-- A PUT REDUCE at the combining queue (R234). The adder reads the element and writes the sum, with the bank's accounts of
both (R185, R186); an uncorrectable element is added as it is stored (DESIGN CHOICE, log 79). -/
def State.performReduce (s : State) (t : Nat) (p : Packet) : State :=
  let x := s.tile t
  let q := x.queue 7
  let c := x.comb
  let n := p.contribs.length
  if p.doff ≠ 0xFE00 then s.answer t p .addressFault
  else if !q.isOpen then s.refuse t p (if s.isHeld t then .spanReset else .readerGone)
  else if !q.comb then s.answer t p .addressFault
  else if x.pad.anyOff 0xFE00 p.len then
    (s.countEvent t cDestOff 0x0303 0xFE00 (x.pad.offRows 0xFE00 p.len)).answer t p .destOff
  else if p.rid ≠ bitsW c.decl0 0 16 || p.rfmt ≠ bitW c.decl0 16 || p.len ≠ bitsW c.decl1 0 9
      || bitsW c.decl0 17 15 < c.count + n then
    (s.countEvent t cRedMis 0x0405 p.rid 1).answer t p .reduceMismatch
  else
    let sum := if c.count = 0 then (p.data, (0 : AFlags))
      else addPayload p.rfmt s.freeCtr (x.pad.bytes 0xFE00 p.len) p.data
    let s := if c.count = 0 then s.padWrite t 0xFE00 p.data
      else { (s.readEffects t 0xFE00 p.len).padWrite t 0xFE00 sum.1 with freeCtr := s.freeCtr + 1 }
    let tag := s.admitTag t p
    let s := s.modTile t fun x =>
      let c := { x.comb with count := x.comb.count + n, flags := x.comb.flags ||| p.flags ||| sum.2 }
      let c := if bitsW c.decl0 17 15 ≤ c.count then { c with held := true, tag := tag, taken := false } else c
      { x with comb := c }.syncQueue 7
    s.answer t p .ok

/-- Perform an accepted request that no consumer entry holds. -/
def State.perform (s : State) (t : Nat) (p : Packet) : State :=
  let a := addrOff p.addr
  let n := reqLen p
  match p.op with
  | .send => s.performSend t p
  | .putReduce => s.performReduce t p
  | _ =>
    if spaceOf p.addr = 1 then
      if s.regFault t p then s.answer t p .addressFault
      else if p.op = .put then (State.regPuts (p.len / 4) s t a p.data (p.srcKind = 1)).answer t p .ok
      else
        let bs := ((List.range (p.len / 4)).map fun i => leBytes 4 (s.regRead t (a + 4 * i)).toNat).flatten
        let s := if a = 0x20 then s.latchTimer t else s
        s.inject t [getResp s.mgmt.engId t p bs]
    else if s.padFault t p then s.answer t p .addressFault
    else
      let pad := (s.tile t).pad
      if pad.anyOff a n then (s.countEvent t cDestOff 0x0303 a (pad.offRows a n)).answer t p .destOff
      else match p.op with
        | .put => (s.padWrite t a p.data).answer t p .ok
        | .get =>
          if pad.bad a n then (s.readEffects t a n).answer t p .uncorrectable
          else (s.readEffects t a n).inject t [getResp s.mgmt.engId t p (pad.bytes a n)]
        | _ => s.performRmw t p

/-! ## Held writes (R182) -/

/-- The scratchpad range that a request writes; none for one that writes nothing there. -/
def writeRange (p : Packet) : Option (Nat × Nat) :=
  match p.op with
  | .get => none
  | .send =>
    let a := 0xF700 + 256 * sendQueue p.addr + 32 * p.sub.toNat
    some (a, a + p.data.length - 1)
  | .putReduce => some (0xFE00, 0xFE00 + p.len - 1)
  | _ => if spaceOf p.addr = 1 then none else some (addrOff p.addr, addrOff p.addr + reqLen p - 1)

def Pad.holds (p : Pad) (k : Packet) : Bool :=
  match writeRange k with
  | some r => p.consumerHit r.1 r.2
  | none => false

/-- A request that the interface has accepted: held before a consumer entry, or performed. -/
def State.arrive (s : State) (t : Nat) (p : Packet) : State :=
  if (s.tile t).pad.holds p then s.modTile t (·.modPad fun d => { d with held := d.held ++ [p] }) else s.perform t p

/-- The first held write that nothing holds any more. -/
def freeHeld (pad : Pad) : List Packet → List Packet → Option Packet
  | _, [] => none
  | seen, p :: ps =>
    if pad.holds p || seen.any (·.vc = p.vc) then freeHeld pad (seen ++ [p]) ps else some p

/-- After an entry is released, the writes it held are performed (R182). -/
def State.releaseHeld : Nat → State → Nat → State
  | 0, s, _ => s
  | fuel + 1, s, t =>
    match freeHeld (s.tile t).pad [] (s.tile t).pad.held with
    | none => s
    | some p => State.releaseHeld fuel
        ((s.modTile t (·.modPad fun d => { d with held := dropPacket p d.held })).perform t p) t

def State.freeWrites (s : State) (t : Nat) : State := s.releaseHeld (s.tile t).pad.held.length t

/-! ## Performing at a Keystone (R21, R252, R287) -/

/-- Do the access ranges of the image admit the operation on every byte? PERM 1 admits GET, PERM 2 everything. -/
def State.ksAdmits (s : State) (p : Packet) : Bool :=
  (List.range (reqLen p)).all fun i => (ranges s.image).any fun r =>
    r.1 ≤ addrKsOff p.addr + i && addrKsOff p.addr + i ≤ r.2.1 && (r.2.2.1 = 2 || (r.2.2.1 = 1 && p.op = .get))

/-- The span whose heartbeat word the operation addresses. -/
def beatSpan (p : Packet) : Option Nat :=
  let o := addrKsOff p.addr
  if 0x3F0000 ≤ o && o < 0x3F4000 && o % 4 = 0 then some ((o - 0x3F0000) / 4) else none

def State.ksReply (s : State) (k : Side) (p : Packet) (q : Packet) : State :=
  s.edgeSend (.keystone k) p.srcTile { q with out := false }

/-- An operation of space 3: the active Keystone performs it within the access ranges, or as a heartbeat. -/
def State.ksPerform (s : State) (k : Side) (p : Packet) : State :=
  let e := s.mgmt.engId
  let o := addrKsOff p.addr
  let n := reqLen p
  let at_ := (s.attachFor (.keystone k) p.srcTile).getD 0
  let resp := fun (c : Code) (old : BitVec 64) => respTo e at_ p p.srcTile p.srcEng c old
  let m := (s.ks k).sram
  let beat := match beatSpan p with
    | some j => p.op = .signal && p.srcKind = 0 && p.span = j
    | none => false
  if k ≠ s.mgmt.active || !(beat || s.ksAdmits p)
      || ((p.op = .atomic || p.op = .signal) && o % n ≠ 0) then s.ksReply k p (resp .addressFault 0)
  else match p.op with
    | .put => (s.modKs k fun x => { x with sram := mPutBytes 0 x.sram o p.data }).ksReply k p (resp .ok 0)
    | .get => s.ksReply k p (getResp e at_ p (mBytes 0 m o n))
    | _ =>
      let old := BitVec.ofNat 64 (leNat (mBytes 0 m o n))
      let s := s.modKs k fun x => { x with sram := mPutBytes 0 x.sram o (leBytes n (rmwValue p n old).toNat) }
      let s := match beat, beatSpan p with
        | true, some j => s.modSpan j fun x => { x with beat := true }
        | _, _ => s
      s.ksReply k p (resp .ok (if p.op = .atomic then old else 0))

/-! ## The arrivals -/

def Place.side : Bool → Side
  | true => .north
  | false => .south

/-- Is the packet a command that a held tile performs: a Keystone's register access over VC3 (R248, Table 11.4)? -/
def isCommand (p : Packet) : Bool := p.vc = 3 && p.srcKind = 1 && spaceOf p.addr = 1

/-- A request reaches a tile: SPAN_RESET where the tile is held in reset and it is no command over VC3 (R248), else it is
accepted. -/
def tileArrive (t : Nat) (p : Packet) (op : PktOp) (s : State) : Out :=
  onTile t s fun s =>
    if p.op ≠ op then .next s
    else if op = .putReduce && (s.tile t).comb.held then .next s
    else match s.take t p with
      | none => .next s
      | some s => if s.isHeld t && !isCommand p then .next (s.refuse t p .spanReset) else .next (s.arrive t p)

/-- A request reaches its target, a tile or a Keystone. -/
def arriveAt (at_ : Place) (p : Packet) (op : PktOp) (s : State) : Out :=
  match at_ with
  | .tile t => tileArrive t p op s
  | .keystone north =>
    let k := Place.side north
    if p.op ≠ op then .next s
    else match s.takeEdge (.keystone k) p with
      | none => .next s
      | some s => .next (s.ksPerform k p)

def execPutArrive (at_ : Place) (p : Packet) (s : State) : Out := arriveAt at_ p .put s
def execGetArrive (at_ : Place) (p : Packet) (s : State) : Out := arriveAt at_ p .get s
def execAtomicArrive (at_ : Place) (p : Packet) (s : State) : Out := arriveAt at_ p .atomic s
def execSignalArrive (at_ : Place) (p : Packet) (s : State) : Out := arriveAt at_ p .signal s

end Sys2Proof.Machine
end

