-- ==== Sys2Proof/Machine/Bank.lean ====
section
/-! DEFINITION. The bank-port arbiter and the power of the scratchpad banks (R173 to R177, R188 to R192, R304, R305). -/

namespace Sys2Proof.Machine

/-! ## The bank-port arbiter (R173 to R176) -/

/-- A request that Table 08.2 admits. -/
def BankReq.legal (r : BankReq) : Bool :=
  r.bank < 8 && (r.input = 0 || (if r.input = 4 || r.input = 5 then r.write else r.input ≤ 6 && !r.write))

/-- What the arbiter can be presented with: legal requests, at most one an input, and no read of inputs 2 and 3 for the
same bank (R173, R177). -/
def reqsOk (rs : List BankReq) : Bool :=
  rs.all BankReq.legal && dupFreeNat (rs.map (·.input))
    && !(rs.any fun a => a.input = 2 && rs.any fun b => b.input = 3 && b.bank = a.bank)
where
  dupFreeNat : List Nat → Bool
    | [] => true
    | a :: l => !l.contains a && dupFreeNat l

/-- The order of the decision: forced requests by ascending input, then the others by descending input (R174). -/
def reqOrder (limit : Nat) (wait : Tab Nat) (rs : List BankReq) : List BankReq :=
  let at_ := fun i => rs.filter fun r => r.input = i
  let forced := fun r : BankReq => decide (limit ≤ tGet 0 wait r.input)
  (((List.range 7).map fun i => (at_ i).filter forced).flatten)
    ++ (((List.range 7).map fun i => (at_ (6 - i)).filter fun r => !forced r).flatten)

/-- Walk the order with two read slots and one write slot (R174). -/
def grantReqs : List BankReq → List BankReq → List BankReq
  | gs, [] => gs
  | gs, r :: rs =>
    let slots := if r.write then (gs.filter (·.write)).length < 1 else (gs.filter fun g => !g.write).length < 2
    grantReqs (if slots && !gs.any (·.bank = r.bank) then gs ++ [r] else gs) rs

/-- The counters after a decision (R175). -/
def waitAfter (limit : Nat) (wait : Tab Nat) (rs gs : List BankReq) : Tab Nat :=
  rs.foldl (fun w r =>
    if gs.any (·.input = r.input) then tSet 0 w r.input 0
    else tSet 0 w r.input (min limit (tGet 0 w r.input + 1))) wait

/-- The requests that the inputs present: where both engines have a write ready for input 4, that of the engine not served
last (R173). -/
def Pad.presented (p : Pad) (reqs : List BankReq) : List BankReq :=
  let wb := fun v => reqs.any fun r => r.input = 4 && r.vec = v
  if wb true && wb false then reqs.filter fun r => !(r.input = 4 && r.vec = p.lastVec) else reqs

/-- A read of inputs 1 to 3 is for the next row of the input's stream (R171). -/
def Pad.streamOk (p : Pad) (r : BankReq) : Bool :=
  if 1 ≤ r.input && r.input ≤ 3 then
    match tGet [] p.stream r.input with
    | row :: _ => r.bank = bankOf (8 * row)
    | [] => false
  else true

/-- What the arbiter can be presented with at a tile. -/
def Pad.reqsFit (p : Pad) (rs : List BankReq) : Bool := reqsOk rs && rs.all p.streamOk

/-- The accesses that take place: streams move to their next rows, and the turn of input 4 passes (R171, R173). -/
def Pad.access (p : Pad) (gs : List BankReq) : Pad :=
  gs.foldl (fun p g =>
    if 1 ≤ g.input && g.input ≤ 3 then { p with stream := tSet [] p.stream g.input (tGet [] p.stream g.input).tail }
    else if g.input = 4 then { p with lastVec := g.vec }
    else p) { p with granted := gs }

/-- One decision of the arbiter. A granted request that its requester withdraws leaves its bank idle in the access cycle:
no second decision is made for it, and the counters stand as that decision advanced them (R176). -/
def execBankPortArbitration (t : Nat) (reqs : List BankReq) (withdrawn : List Nat) (s : State) : Out :=
  onTile t s fun s =>
    let x := s.tile t
    let rs := x.pad.presented reqs
    if !x.pad.reqsFit rs then .next s else
    let lim := x.rtr.arbWait
    let gs := grantReqs [] (reqOrder lim x.pad.wait rs)
    .next (s.modTile t (·.modPad fun p =>
      { p with wait := waitAfter lim p.wait rs gs }.access (gs.filter fun g => !withdrawn.contains g.input)))

/-! ## Bank power (R188 to R192) -/

/-- The banks that a range of scratchpad bytes touches. -/
def touches (b a n : Nat) : Bool := (rowsOf a n).any fun r => bankOf (8 * r) = b

/-- Does a packet write to bank `b`? -/
def writesBank (b : Nat) (k : Packet) : Bool :=
  match writeRange k with
  | some r => touches b r.1 (r.2 + 1 - r.1)
  | none => false

/-- The completion word of a descriptor whose results have all landed waits before a consumer entry (R182). -/
def Tile.heldWord (x : Tile) (ds : List Desc) (off : Nat) : List (Nat × Nat) :=
  match ds with
  | d :: _ => if d.phase = .latched && x.pad.consumerHit (d.off + off) (d.off + off + 3) then [(d.off + off, 4)] else []
  | [] => []

/-- The engine writes that wait to land: offset and length of each. -/
def Tile.engineWrites (x : Tile) : List (Nat × Nat) :=
  (match x.eng.vec with | e :: _ => e.writes.map fun w => (w.2.1, w.2.2.length) | [] => [])
    ++ x.heldWord x.eng.mat 28 ++ x.heldWord x.eng.vec 60

/-- The outstanding-write count of bank `b`: network writes held or waiting behind a held write, engine writes that have not
landed, and incomplete-write entries that overlap it (R189). -/
def Tile.outWrites (x : Tile) (b : Nat) : Nat :=
  (x.pad.held.filter (writesBank b)).length
    + (x.ni.inbox.filter fun k => writesBank b k && (firstOn k.vc x.pad.held).isSome).length
    + (x.engineWrites.filter fun w => touches b w.1 w.2).length
    + (x.pad.sb.filter fun e => !e.2.consumer && touches b e.2.lo (e.2.hi + 1 - e.2.lo)).length

/-- The banks that a power-down command refuses: on, with outstanding writes (R190). -/
def Tile.refused (x : Tile) (banks : BitVec 8) : BitVec 8 :=
  (List.range 8).foldl (fun m b =>
    if banks.getLsbD b && x.pad.on.getLsbD b && x.outWrites b ≠ 0 then m ||| BitVec.ofNat 8 (2 ^ b) else m) 0

/-- Table 08.7's reply. -/
def bankReply (done refused on : BitVec 8) : Word :=
  BitVec.ofNat 32 (done.toNat * 2 ^ 24 + refused.toNat * 2 ^ 16 + on.toNat * 2 ^ 8)

/-- The banks named switch off, their contents lost (R190). -/
def Pad.switchOff (p : Pad) (banks : BitVec 8) : Pad :=
  { p with
    on := p.on &&& ~~~banks
    clearing := p.clearing.filter fun e => !banks.getLsbD e.1
    mem := p.mem.filter fun c => !banks.getLsbD (bankOf c.1)
    ecc := p.ecc.filter fun e => !banks.getLsbD (bankOf (8 * e.1)) }

/-- A power-down command at a tile: each bank named is switched off or refused; a refusal raises BANK_OFF_REFUSED. -/
def State.bankDown (s : State) (t : Nat) (banks : BitVec 8) : State :=
  let p := (s.tile t).pad
  let r := (s.tile t).refused banks
  let q := p.switchOff (banks &&& ~~~r)
  let s := s.modTile t fun x => { x with pad := { q with replies := q.replies ++ [bankReply (banks &&& ~~~r) r q.on] } }
  if r = 0 then s else s.tileEvent t 0x0304 r.toNat

/-- The bank map: the mask of span `n` as the image's Kiln section gives it; every bank without one (R303, R305). -/
def bankMask (m : Mem) (n : Nat) : BitVec 8 :=
  match sect m 4 with
  | none => 0xFF
  | some x =>
    let off := imgLe m (x.off + 22) 2
    if off = 0 then 0xFF else BitVec.ofNat 8 (imgByte m (x.off + off + n))

/-- Send one tile its power-down command and keep what it refuses, to be repeated 1 ms later (R305). -/
def State.bankOrder (s : State) (n t : Nat) (banks : BitVec 8) (tries : Nat) : State :=
  let r := (s.tile t).refused banks
  let s := s.bankDown t banks
  if r = 0 then s
  else if 100 ≤ tries + 1 then s.event 0x0304 2 r.toNat (some (fieldOf t)) (some n) (some t)
  else s.modSpan n fun x => { x with bankRetry := x.bankRetry ++ [(t, r, tries + 1, s.time)] }

/-- At a first start or a restart, power down what the span's mask leaves off (R305). -/
def State.bankOrders (s : State) (n : Nat) : State :=
  let m := ~~~(bankMask s.image n)
  if m = 0 then s
  else (s.spanTiles n).foldl (fun s t => s.bankOrder n t m 0) (s.modSpan n fun x => { x with bankRetry := [] })

/-- The active Keystone's power-down command reaches a tile. -/
def execBankPowerDown (t : Nat) (banks : BitVec 8) (s : State) : Out := onTile t s fun s => .next (s.bankDown t banks)

/-- Send the replies of the power-up commands none of whose banks is being cleared: DONE names every bank of the command
that is on (R192). -/
def Pad.replyUps (p : Pad) : Pad :=
  let open_ := fun m : BitVec 8 => p.clearing.any fun e => m.getLsbD e.1
  { p with ups := p.ups.filter open_,
           replies := p.replies ++ (p.ups.filter fun m => !open_ m).map fun m => bankReply (m &&& p.on) 0 p.on }

/-- The active Keystone's power-up command: banks that are off switch on and are cleared, which takes 1,088 cycles; the
reply is sent when no bank named is being cleared, at once where none is (R192). -/
def execBankPowerUp (t : Nat) (banks : BitVec 8) (s : State) : Out :=
  onTile t s fun s => .next (s.modTile t (·.modPad fun p =>
    let new := (List.range 8).filter fun b => banks.getLsbD b && !p.on.getLsbD b
    { p with on := p.on ||| banks, clearing := new.foldl (fun c b => tPut c b s.now) p.clearing,
             ups := p.ups ++ [banks] }.replyUps))

/-- The banks whose clearing has run 1,088 cycles hold zeros, and the replies that waited for them are sent (R192). -/
def execBankClearDone (t : Nat) (s : State) : Out :=
  onTile t s fun s =>
    .next (s.modTile t (·.modPad fun p =>
      { p with clearing := p.clearing.filter fun e => !(e.2 + 1088 ≤ s.now) }.replyUps))

/-- Every refused power-down of a span that is 1 ms old is repeated; after 100 refusals the bank stays on and
BANK_OFF_REFUSED is logged (R305). -/
def execBankPowerRetry (n : Nat) (s : State) : Out :=
  if 4096 ≤ n then .fault .noSuchUnit else
  let due := (s.span n).bankRetry.filter fun e => e.2.2.2 + Config.ms 1 ≤ s.time
  let s := s.modSpan n fun x => { x with bankRetry := x.bankRetry.filter fun e => !(e.2.2.2 + Config.ms 1 ≤ s.time) }
  .next (due.foldl (fun s e => s.bankOrder n e.1 e.2.1 e.2.2.1) s)

end Sys2Proof.Machine
end

