-- ==== Sys2Proof/Machine/Mesh.lean ====
section
/-! DEFINITION. The mesh: routing, detours, broadcasts, arbitration, reduction on the way, retries and dead links, and
route changes (R194 to R213, R377, R379, R380). -/

namespace Sys2Proof.Machine

/-! ## Links of a router (R194, R205) -/

/-- Is the output toward `d` blocked: by its link-state bit, its link dead, its link or the tile beyond it listed in the live
map, or a port without attachment (R205)? -/
def State.blockedDir (s : State) (t : Nat) (d : Dir) : Bool :=
  let r := (s.tile t).rtr
  r.blocked.getLsbD d.code || r.dead.getLsbD d.code || linkListed s.map.recs t d || ((neighbour t d).isNone && !attached t d)

/-- The attached outward direction of an edge tile (R18). -/
def outDir (t : Nat) : Option Dir := allDirs.find? (attached t)

/-- Is the link there: toward a neighbour or an attached block? -/
def hasLink (t : Nat) (d : Dir) : Bool := (neighbour t d).isSome || attached t d

/-! ## Routing (R204 to R209) -/

/-- What a router does with a packet. -/
inductive Hop where
  | out (ports : List Nat) (p : Packet)
  | unreachable (p : Packet)
  deriving DecidableEq, Repr

/-- The direction toward a tile: x first, then y; none at the tile (R204). -/
def toward (t u : Nat) : Option Dir :=
  if tileX t < tileX u then some .east
  else if tileX u < tileX t then some .west
  else if tileY t < tileY u then some .north
  else if tileY u < tileY t then some .south
  else none

def detourHolds (e : DetourEntry) (d : Dir) (u : Nat) : Bool :=
  e.valid && e.dir = d && e.xLo ≤ tileX u && tileX u ≤ e.xHi && e.yLo ≤ tileY u && tileY u ≤ e.yHi

/-- Route by R204; a blocked output by R208 and R209. The fuel counts waypoints reached and detours taken. -/
def State.route : Nat → State → Nat → Packet → Hop
  | 0, _, _, p => .unreachable p
  | fuel + 1, s, t, p =>
    let r := (s.tile t).rtr
    let blockedAt := fun (d : Dir) =>
      if p.rtEpoch ≠ r.epoch then Hop.unreachable p
      else if neighbour t d = some p.dest then .unreachable p
      else match r.detour.find? fun e => detourHolds e d p.dest with
        | some e =>
          if p.dcnt < 7 then State.route fuel s t { p with waypoint := e.waypoint, wpv := true, dcnt := p.dcnt + 1 }
          else .unreachable p
        | none => .unreachable p
    match toward t (if p.wpv then p.waypoint else p.dest) with
    | some d => if s.blockedDir t d then blockedAt d else .out [d.port] p
    | none =>
      if p.wpv then State.route fuel s t { p with wpv := false }
      else if !p.out then .out [0] p
      else match outDir t with
        | none => .unreachable p
        | some d => if s.blockedDir t d then blockedAt d else .out [d.port] p

/-- The outputs of a broadcast that came by port `i` (R206). -/
def State.castPorts (s : State) (t i : Nat) : List Nat :=
  let r := (s.tile t).rtr
  (0 :: (allDirs.filter fun d => r.mask.getLsbD d.code && !s.blockedDir t d).map Dir.port).filter (· ≠ i)

def State.hop (s : State) (t i : Nat) (p : Packet) : Hop :=
  if p.bcast && p.vc = 3 then .out (s.castPorts t i) p else s.route 20 t p

/-- The unreachable-destination response to a request; an answer is discarded and counted, a management packet is
dropped (R25, R208, R213, R379). -/
def State.cannotReach (s : State) (t : Nat) (p : Packet) : State :=
  if p.vc = 1 then s.modTile t (·.count cAnsDisc 1)
  else if p.vc = 3 then s
  else s.answer t p .unreachable

/-! ## Events of a router (R423) -/

/-- A router raises an event: one report of a code in 1,048,576 cycles (R423). -/
def State.routerEvent (s : State) (t code arg : Nat) : State :=
  let e : EventReport := { code := code, src := 1, tile := some t, field := some (fieldOf t), arg := arg }
  let k := code + 65536
  match tGet? (s.tile t).evts k with
  | none => (s.modTile t fun x => { x with evts := tPut x.evts k (s.now, 0) }).report e
  | some (last, n) =>
    if s.now < last + 1048576 then s.modTile t fun x => { x with evts := tPut x.evts k (last, n + 1) }
    else (s.modTile t fun x => { x with evts := tPut x.evts k (s.now, 0) }).report { e with count := n + 1 }

/-! ## Reduction on the way (R211 to R213) -/

/-- Equal DEST, RID and DOFF. -/
def sameTarget (a b : Packet) : Bool := a.dest = b.dest && a.rid = b.rid && a.doff = b.doff

def packetsMatch (a b : Packet) : Bool := sameTarget a b && a.rfmt = b.rfmt && a.flits = b.flits

/-- The packet of two that combine: `a` is the one already present (R211). -/
def combined (ctr : Nat) (a b : Packet) : Packet :=
  let r := addPayload a.rfmt ctr a.data b.data
  { a with data := r.1, flags := a.flags ||| b.flags ||| r.2, contribs := a.contribs ++ b.contribs, cops := a.cops ++ b.cops }

/-- Is a REDUCE packet held that came by port `i` and leaves by port `o` (R212)? -/
def holdsAt (i o : Nat) : Bool := o = 0 || ((i = 1 || i = 3) && (o = 2 || o = 4))

/-- The buffer of a port and a channel, by 4 × port + channel. -/
def Rtr.buf (r : Rtr) (i vc : Nat) : List Buffered := tGet [] r.bufs (4 * i + vc)
def Rtr.setBuf (r : Rtr) (i vc : Nat) (l : List Buffered) : Rtr := { r with bufs := tSet [] r.bufs (4 * i + vc) l }
def Rtr.wireTo (r : Rtr) (o : Nat) : List Packet := tGet [] r.wire o

/-- Queue a packet in its input buffer with the outputs it requests. -/
def State.buffer (s : State) (t i : Nat) (p : Packet) (outs : List Nat) : State :=
  s.modTile t (·.modRtr fun r => r.setBuf i p.vc (r.buf i p.vc ++ [⟨p, outs, s.now⟩]))

/-- May two packets that meet combine (R211)? -/
def mayCombine (a b : Packet) (i j : Nat) : Bool := packetsMatch a b && i ≠ j && a.contribs.length + b.contribs.length ≤ 8

/-- Two that came by ports `i` and `j` and do not combine for their format or length: both are forwarded, the event is
counted and raised (R213). -/
def State.mismatch (s : State) (t : Nat) (a p : Packet) : State :=
  if sameTarget a p && !(a.rfmt = p.rfmt && a.flits = p.flits) then
    (s.modTile t (·.count cRedMis 1)).routerEvent t 0x0405 p.rid
  else s

/-- The combination of a packet `a` of port `j` with `p`, which has just arrived by port `i`: `a` counts as the one already
present unless its head came in this cycle too, by a higher port (R211). -/
def State.combine (s : State) (a p : Packet) (at_ j i : Nat) : Packet :=
  if at_ = s.now && i < j then combined s.freeCtr p a else combined s.freeCtr a p

/-- The REDUCE packets that request output `o` at the heads of the other ports' buffers and arrived in this cycle, by port. -/
def State.twins (s : State) (t i o : Nat) : List (Nat × Packet) :=
  (List.range 5).filterMap fun j => match (s.tile t).rtr.buf j 2 with
    | b :: _ => if j ≠ i && b.pkt.reduce && b.outs = [o] && b.at_ = s.now then some (j, b.pkt) else none
    | [] => none

/-- A routed REDUCE packet that finds no packet in the slot of its output: it combines at once with one of the same cycle,
in the buffer of the lower port, is held, or requests its output. It is not held behind an earlier packet of its port for
the output. -/
def State.reduceFree (s : State) (t i o : Nat) (p : Packet) : State :=
  let ts := s.twins t i o
  let free := (s.tile t).rtr.buf i 2 = []
  match ts.find? fun e => free && mayCombine e.2 p e.1 i with
  | some (j, a) =>
    let k := s.combine a p s.now j i
    let s := s.modTile t (·.modRtr fun r => r.setBuf j 2 (r.buf j 2).tail)
    { s.modTile t (·.modRtr fun r => r.setBuf (min i j) 2 (⟨k, [o], s.now⟩ :: r.buf (min i j) 2)) with
      freeCtr := s.freeCtr + 1 }
  | none =>
    let s := ts.foldl (fun s e => s.mismatch t e.2 p) s
    if holdsAt i o && !((s.tile t).rtr.buf i 2).any (·.outs.contains o) then
      s.modTile t (·.modRtr fun r => { r with comb := tPut r.comb o ⟨p, i, s.now, false⟩ })
    else s.buffer t i p [o]

/-- A routed REDUCE packet: it combines with the packet in the slot of its output, which then requests that output, is held,
or requests its output (R211, R212). -/
def State.reduceAt (s : State) (t i o : Nat) (p : Packet) : State :=
  match tGet? (s.tile t).rtr.comb o with
  | some c =>
    if mayCombine c.pkt p c.port i then
      let k := s.combine c.pkt p c.at_ c.port i
      { s.modTile t (·.modRtr fun r => { r with comb := tPut r.comb o { c with pkt := k, ready := true } }) with
        freeCtr := s.freeCtr + 1 }
    else (s.buffer t i p [o]).mismatch t c.pkt p
  | none => s.reduceFree t i o p

/-- Treat a packet that has come by port `i`; one of a kind that never enters a mesh is discarded and counted (R217). -/
def State.treat (s : State) (t i : Nat) (p : Packet) : State :=
  if p.op.pierOnly then s.modTile t (·.count cAnsDisc 1) else
  match s.hop t i p with
  | .unreachable q => s.cannotReach t q
  | .out outs q =>
    match q.op, outs with
    | .putReduce, [o] => if q.reduce then s.reduceAt t i o q else s.buffer t i q outs
    | _, [] => s
    | _, _ => s.buffer t i q outs

/-! ## ROUTER_FORWARD (R195, R204) -/


/-- Flits of a channel that an input buffer holds. -/
def Rtr.held (r : Rtr) (i vc : Nat) : Nat := flitsIn ((r.buf i vc).map (·.pkt))

/-- Take the first packet of a channel that waits at port `i`: from the tile's own interface, from an attached block, or
from the neighbour's wire; the first two wait for room for the whole packet (R195). -/
def State.takeIn (s : State) (t i vc : Nat) : Option (Packet × State) :=
  let r := (s.tile t).rtr
  let room := fun (p : Packet) => r.held i vc + p.flits ≤ 12
  match portDir i with
  | none =>
    if i ≠ 0 then none else
    match firstOn vc (s.tile t).ni.inj with
    | some p => if room p then some (p, s.modTile t (·.modNi fun n => { n with inj := dropPacket p n.inj })) else none
    | none => none
  | some d =>
    match neighbour t d with
    | some u =>
      let o := d.opposite.port
      match firstOn vc ((s.tile u).rtr.wireTo o) with
      | some p =>
        some (p, (s.modTile u (·.modRtr fun q => { q with wire := tSet [] q.wire o (dropPacket p (q.wireTo o)) })).modTile
          t (·.modRtr fun q => { q with fails := tDel q.fails d.code }))
      | none => none
    | none =>
      if !attached t d then none else
      match firstOn vc r.edgeIn with
      | some p =>
        if room p then
          some (p, s.modTile t (·.modRtr fun q =>
            ({ q with edgeIn := dropPacket p q.edgeIn, fails := tDel q.fails d.code } : Rtr).feed (crossingAt t)))
        else none
      | none => none

/-- A packet's head reaches the router by a port and is routed. -/
def execRouterForward (t : Nat) (port vc : Nat) (s : State) : Out :=
  onTile t s fun s =>
    match s.takeIn t port vc with
    | none => .next s
    | some (p, s) => .next (s.treat t port p)

/-! ## ROUTER_ARBITRATION (R199, R200, R203) -/

def vcRank : Nat → Nat
  | 0 => 0 | 2 => 1 | 1 => 2 | _ => 3
def rankVc : Nat → Nat
  | 0 => 0 | 1 => 2 | 2 => 1 | _ => 3

/-- Has the input beyond output `o` room for the whole packet: a neighbour's buffer (R195), or the crossing of an attached
block (R331)? A tile's interface accepts. -/
def State.credit (s : State) (t o : Nat) (p : Packet) : Bool :=
  match portDir o with
  | none => true
  | some d =>
    let sent := (s.tile t).rtr.wireTo o
    match neighbour t d with
    | some u => (s.tile u).rtr.held d.opposite.port p.vc + flitsIn (sent.filter fun q => q.vc = p.vc) + p.flits ≤ 12
    | none => (crossingAt t).fits sent p

/-- The packet in the combine slot of output `o` that stands for port `i`; the port's later VC2 packets for the output wait
behind it (R212). -/
def Rtr.slotOf (r : Rtr) (o i vc : Nat) : Option CombSlot :=
  match tGet? r.comb o with
  | some c => if vc = 2 && c.port = i then some c else none
  | none => none

/-- What input `n` (5 × rank + port) asks output `o` for: the packet in the combine slot, or the head of its buffer. -/
def State.asks (s : State) (t o n : Nat) : Option Packet :=
  let r := (s.tile t).rtr
  let i := n % 5
  let vc := rankVc (n / 5)
  if i = o then none else
  match r.slotOf o i vc with
  | some c => if c.ready then some c.pkt else none
  | none => match r.buf i vc with
    | b :: _ => if b.outs.contains o then some b.pkt else none
    | [] => none

/-- Remove what input `n` asks output `o` for; the buffer keeps a packet while copies are still to be sent (R206). -/
def State.takeAsked (s : State) (t o n : Nat) : State :=
  let i := n % 5
  let vc := rankVc (n / 5)
  s.modTile t (·.modRtr fun r => match r.slotOf o i vc with
    | some _ => { r with comb := tDel r.comb o }
    | none => r.setBuf i vc (match r.buf i vc with
      | b :: l => if b.outs.filter (· ≠ o) = [] then l else { b with outs := b.outs.filter (· ≠ o) } :: l
      | [] => []))

/-- The requests of a decision, in ascending input number. -/
def State.requests (s : State) (t o : Nat) : List Nat :=
  (List.range 20).filter fun n => match s.asks t o n with
    | some p => s.credit t o p
    | none => false

/-- The granted input: the lowest forced one, else the highest (R174, R199). -/
def winner (limit : Nat) (count : Nat → Nat) (ns : List Nat) : Option Nat :=
  match ns.find? fun n => limit ≤ count n with
  | some n => some n
  | none => ns.getLast?

/-- The counters after a decision, by 20 × output + input (R175). -/
def Rtr.decided (r : Rtr) (o : Nat) (ns : List Nat) (w : Nat) : Rtr :=
  { r with wait := ns.foldl (fun c n =>
      if n = w then tSet 0 c (20 * o + n) 0
      else tSet 0 c (20 * o + n) (min r.arbWait (tGet 0 c (20 * o + n) + 1))) r.wait }

/-- The granted packet leaves by output `o`. -/
def State.sendOut (s : State) (t o n : Nat) (p : Packet) : State :=
  let s := s.takeAsked t o n
  match portDir o with
  | none => s.modTile t (·.modNi fun x => { x with inbox := x.inbox ++ [p] })
  | some d => s.modTile t (·.modRtr fun r =>
      { r with wire := tPut r.wire o (r.wireTo o ++ [p]), lastUse := tPut r.lastUse d.code s.now })

/-- Treat the packets that ask for an output which has become blocked (R210, step 1); one in the combine slot waits for room in
its input buffer. -/
def State.retreat (s : State) (t o : Nat) : State :=
  (List.range 20).foldl (fun s n =>
    match s.asks t o n with
    | none => s
    | some p =>
      let i := n % 5
      let vc := rankVc (n / 5)
      let r := (s.tile t).rtr
      let s' := s.takeAsked t o n
      if p.bcast && p.vc = 3 then s'
      else match s.hop t i p with
        | .unreachable q => s'.cannotReach t q
        | .out outs q =>
          if (r.slotOf o i vc).isSome && 12 < r.held i vc + q.flits then s
          else s'.modTile t (·.modRtr fun r => r.setBuf i vc (⟨q, outs, s.now⟩ :: r.buf i vc))) s

/-- Is a span reset under way that has not reached the tile yet? -/
def State.resetComing (s : State) (t : Nat) : Bool :=
  !(s.tile t).held && (match s.spanOf t with
    | some n => (s.span n).state = .resetting
    | none => false)

/-- One decision of an output's arbiter. A grant of a local packet that the span reset now under way discards is withdrawn:
the output stays idle for one cycle and the counts stay as the decision left them (R200). -/
def execRouterArbitration (t : Nat) (port : Nat) (withdrawn : Bool) (s : State) : Out :=
  onTile t s fun s =>
    if 5 ≤ port then .fault .noSuchUnit
    else if (match portDir port with | some d => s.blockedDir t d | none => false) then .next (s.retreat t port)
    else
      let r := (s.tile t).rtr
      let ns := s.requests t port
      match winner r.arbWait (fun n => tGet 0 r.wait (20 * port + n)) ns with
      | none => .next (s.modTile t (·.modRtr fun r => { r with idleOut := r.idleOut.filter (· ≠ port) }))
      | some n =>
        match s.asks t port n with
        | none => .next s
        | some p =>
          let s' := s.modTile t (·.modRtr fun r =>
            { r.decided port ns n with idleOut := r.idleOut.filter (· ≠ port) })
          if withdrawn then
            if n % 5 = 0 && p.vc ≠ 1 && s.resetComing t then
              .next (s'.modTile t (·.modRtr fun r => { r with idleOut := r.idleOut ++ [port] }))
            else .next s
          else .next (s'.sendOut t port n p)

/-- A packet held 8 cycles in the combine slot of an output requests it (R212). -/
def execCombineSlotTimeout (t : Nat) (port : Nat) (s : State) : Out :=
  onTile t s fun s =>
    match tGet? (s.tile t).rtr.comb port with
    | some c =>
      if c.at_ + 8 ≤ s.now then
        .next (s.modTile t (·.modRtr fun r => { r with comb := tPut r.comb port { c with ready := true } }))
      else .next s
    | none => .next s

/-! ## Retries, dead links and idle checks (R197, R377) -/

/-- The 32-bit word of a map record (Table 01.7). -/
def MapRec.word : MapRec → Nat
  | .tile t ph c => ph * 2 ^ 27 + c * 2 ^ 24 + t
  | .link t d ph => 2 ^ 30 + ph * 2 ^ 27 + d * 2 ^ 22 + t
  | .field f ph c => 2 ^ 31 + ph * 2 ^ 27 + c * 2 ^ 24 + f

/-- Every packet that tile `t` has sent by direction `d` and not had acknowledged is answered, in order (R197). -/
def State.failWire (s : State) (t : Nat) (d : Dir) : State :=
  let ps := (s.tile t).rtr.wireTo d.port
  ps.foldl (fun s p => s.cannotReach t p) (s.modTile t (·.modRtr fun r => { r with wire := tDel r.wire d.port }))

def State.markDead (s : State) (t : Nat) (d : Dir) : State :=
  s.modTile t (·.modRtr fun r => { r with dead := r.dead ||| BitVec.ofNat 4 (2 ^ d.code) })

/-- The receiver declares the link dead (R197): both ends stop using it, unacknowledged packets are answered, the event is
raised and the report goes to the Keystone (R378). -/
def State.linkDead (s : State) (t : Nat) (d : Dir) : State :=
  let l := linkOf t d
  let s := (s.markDead t d).failWire t d
  let s := match neighbour t d with
    | some u => (s.markDead u d.opposite).failWire u d.opposite
    | none =>
      let r := (s.tile t).rtr
      (r.edgeIn ++ r.edgeWait).foldl (fun s p => s.edgeFail t d p)
        (s.modTile t (·.modRtr fun r => { r with edgeIn := [], edgeWait := [] }))
  let s := s.routerEvent t 0x0504 (MapRec.link l.1 l.2 3).word
  { s with routes := { s.routes with deadLinks := s.routes.deadLinks ++ [(t, d)] } }

/-- A flit or check fails at the receiver: a retry; the link is dead after 3 failures in a row or more than 16 retries in
1,048,576 cycles (R197). -/
def State.flitFails (s : State) (t : Nat) (d : Dir) : State :=
  let r := (s.tile t).rtr
  let k := d.code
  let f := tGet 0 r.fails k + 1
  let w := ((tGet [] r.retries k).filter fun c => s.now < c + 1048576) ++ [s.now]
  if 3 ≤ f || 16 < w.length then
    (s.modTile t fun x => x.modRtr fun r => { r with fails := tDel r.fails k, retries := tDel r.retries k }).linkDead t d
  else
    s.modTile t fun x => (x.modRtr fun r => { r with fails := tPut r.fails k f, retries := tPut r.retries k w }).count
      cRetries 1

/-- What waits to cross the link into tile `t` by direction `d`. -/
def State.crossing (s : State) (t : Nat) (d : Dir) : List Packet :=
  match neighbour t d with
  | some u => (s.tile u).rtr.wireTo d.opposite.port
  | none => (s.tile t).rtr.edgeIn

/-- Tile `t` detects an error in a flit that comes by direction `d`. -/
def execLinkRetry (t : Nat) (d : Dir) (s : State) : Out :=
  onTile t s fun s =>
    if !hasLink t d || (s.tile t).rtr.dead.getLsbD d.code || (s.crossing t d).isEmpty then .next s
    else .next (s.flitFails t d)

/-- Tile `t` sends an idle check by direction `d`: 1,024 cycles after the last flit or check, or at once where the last one
failed (R377). -/
def execIdleCheck (t : Nat) (d : Dir) (ok : Bool) (s : State) : Out :=
  onTile t s fun s =>
    let r := (s.tile t).rtr
    -- the end that receives the check, with the direction it comes by
    let e := match neighbour t d with
      | some u => (u, d.opposite)
      | none => (t, d)
    if !hasLink t d || r.dead.getLsbD d.code then .next s
    else if s.now < tGet 0 r.lastUse d.code + 1024 && tGet 0 (s.tile e.1).rtr.fails e.2.code = 0 then .next s
    else
      let s := s.modTile t (·.modRtr fun r => { r with lastUse := tPut r.lastUse d.code s.now })
      if ok then .next (s.modTile e.1 (·.modRtr fun r => { r with fails := tDel r.fails e.2.code }))
      else .next (s.flitFails e.1 e.2)

/-! ## Router configuration and route changes (R205 to R210, R380) -/

def Rtr.config (r : Rtr) : RouterCfg → Rtr
  | .linkState b => { r with blocked := b }
  | .tables es e => { r with detour := es.take 32, epoch := e % 4 }
  | .mask b => { r with mask := b }
  | .bisque b es m => { r with blocked := b, detour := es.take 32, mask := m, epoch := 0 }

/-- The table that a route change gives a router: a new one, or the one it has (R210, step 2). -/
def RouteChange.tableOf (ch : RouteChange) (t : Nat) (r : Rtr) : List DetourEntry :=
  match ch.tables.find? (·.1 = t) with
  | some e => e.2
  | none => r.detour

/-- The Keystone's write reaches the router, which acknowledges it: the write that brings it the table and the epoch of the
route change under way is ticked off (R207, R210). A detour table holds 32 entries. -/
def State.routerConfig (s : State) (t : Nat) (c : RouterCfg) : State :=
  let r := (s.tile t).rtr
  let s := s.modTile t (·.modRtr (·.config c))
  match c, s.routes.change with
  | .tables es e, some ch =>
    if e % 4 = ch.epoch && es = ch.tableOf t r && s.usable t && !ch.acked.contains t then
      { s with routes := { s.routes with change := some { ch with acked := ch.acked ++ [t] } } }
    else s
  | _, _ => s

def execRouterConfigWrite (t : Nat) (c : RouterCfg) (s : State) : Out :=
  onTile t s fun s => .next (s.routerConfig t c)

/-- Every router has acknowledged: the network interfaces advance to the new route epoch, and traffic chooses its attachment
tiles by the map that the change carries out (R210, step 3; R446). -/
def execRouteTablesAcked (s : State) : Out :=
  match s.routes.change with
  | some ch =>
    if ch.acked.length < s.map.usable then .next s
    else .next { s with
      routes := { s.routes with epoch := ch.epoch, change := none, recs := ch.recs }
      vdt := { s.vdt with outOf := ch.pairs.foldl (fun l e =>
        let l := l.filter (· ≠ (e.1, e.2.1))
        if e.2.2 then l ++ [(e.1, e.2.1)] else l) s.vdt.outOf } }
  | none => .next s

end Sys2Proof.Machine
end

