-- ==== Sys2Proof/Machine/Bounds.lean ====
section
/-! DEFINITION. The bounds within which the Keystone holds the tables it writes, whatever firmware computes them (R206, R269,
R445): every usable tile reaches every other and every live attachment tile, no route turns back, no cycle of turns, and one
broadcast copy to each usable tile. -/

namespace Sys2Proof.Machine

/-- The mesh as the Keystone knows it: a link declared dead and not yet listed counts as one that works. -/
def State.asListed (s : State) : State :=
  { s with tiles := s.tiles.map fun e => (e.1, e.2.modRtr fun r => { r with dead := 0 }) }

def State.usableTiles (s : State) : List Nat := (List.range Config.nTiles).filter s.usable

/-- The blocks of the perimeter (Table 01.2). -/
def blocks : List Block :=
  [.keystone .south, .keystone .north, .pcie 0, .pcie 1, .pcie 2, .pcie 3] ++ (List.range 32).map Block.vdt

/-- The live attachment tiles of every block, with their outward ports. -/
def State.attachments (s : State) : List (Nat × Nat) :=
  (blocks.map fun b => (s.live b).map fun a => (a, b.dir.port)).flatten

/-- A channel: a router and its output. -/
abbrev Channel := Nat × Nat

/-- The channels that a packet takes from tile `t`, which it has reached by port `i`; none where it is not delivered or turns
back. A route follows R204 wherever its output is not blocked, so a free X-then-Y route is always taken. -/
def State.way (s : State) : Nat → Nat → Nat → Packet → Option (List Channel)
  | 0, _, _, _ => none
  | fuel + 1, t, i, p =>
    match s.route 20 t { p with rtEpoch := (s.tile t).rtr.epoch } with
    | .out [o] q =>
      if o = 0 then some []
      else if o = i then none
      else match portDir o with
        | none => none
        | some d => match neighbour t d with
          | some u => (s.way fuel u d.opposite.port q).map ((t, o) :: ·)
          | none => some [(t, o)]
    | _ => none

/-- Steps enough for a route of seven detours. -/
def wayFuel : Nat := 16 * (Config.cols + Config.rows)

/-- The ways from usable tiles to usable tiles and out at live attachment tiles, and from these to usable tiles. -/
def State.ways (s : State) : List (Option (List Channel)) :=
  let us := s.usableTiles
  let to_ := fun (u : Nat) (o : Bool) => ({ op := .put, dest := u, out := o } : Packet)
  (us.map fun t => (us.filter (· ≠ t)).map (fun u => s.way wayFuel t 0 (to_ u false))
    ++ s.attachments.map fun a => s.way wayFuel t 0 (to_ a.1 true)).flatten
  ++ (s.attachments.map fun a => us.map fun u => s.way wayFuel a.1 a.2 (to_ u false)).flatten

/-- The turns of a way: each channel with the one that follows it. -/
def turnsOf (w : List Channel) : List (Channel × Channel) := w.zip w.tail

/-- Is there no cycle? A turn into a channel that no turn leaves is on none, and is taken away. -/
def acyclic : Nat → List (Channel × Channel) → Bool
  | 0, l => l.isEmpty
  | n + 1, l =>
    let k := l.filter fun e => l.any fun f => f.1 = e.2
    if k.length = l.length then l.isEmpty else acyclic n k

/-- Are the tables within R445's bounds? -/
def State.routesHold (s : State) : Bool :=
  let ws := s.asListed.ways
  let turns := ((ws.filterMap id).map turnsOf).flatten
  ws.all (·.isSome) && acyclic (turns.length + 1) turns

/-- Steps enough for a copy to have gone to every tile. -/
def castFuel : Nat := Config.nTiles + 1

/-- The tiles that receive a copy of a broadcast which has come to tile `t` by port `i` (R206). -/
def State.copies (s : State) : Nat → Nat → Nat → List Nat
  | 0, _, _ => []
  | fuel + 1, t, i => ((s.castPorts t i).map fun o => match portDir o with
      | none => [t]
      | some d => match neighbour t d with
        | some u => s.copies fuel u d.opposite.port
        | none => []).flatten

/-- Do the masks form one tree over the usable tiles, rooted at the active Keystone's live attachment tiles (R206, R269)? Each
root receives the broadcast from the Keystone itself (DEDUCED, log 28). -/
def State.castsHold (s : State) : Bool :=
  let s := s.asListed
  let b := Block.keystone s.mgmt.active
  let ts := ((s.live b).map fun a => s.copies castFuel a b.dir.port).flatten
  (List.range Config.nTiles).all fun t => ts.count t = if s.usable t then 1 else 0

end Sys2Proof.Machine
end

