-- ==== Sys2Proof/Machine/Dataflow.lean ====
section
/-! DEFINITION. The match unit, the steering unit and the firing of actions (R64 to R82). -/

namespace Sys2Proof.Machine

/-! ## Sources (R70) -/

/-- The unit works while the sequencer is not STOPPED: at START the queues begin to deliver (R85 step 4; log 13). -/
def Tile.unitsOn (x : Tile) : Bool := x.seq.state ≠ .stopped

/-- The token a source presents. -/
def Tile.srcTok (x : Tile) : TokSrc → Option Token
  | .steering => x.df.out.head?
  | .local => x.df.ltb.head?
  | .queue i => if i < 8 then x.queueTok i else none

/-- The source has given its token. -/
def Tile.srcPop (x : Tile) : TokSrc → Tile
  | .steering => x.modDf fun d => { d with out := d.out.tail }
  | .local => x.modDf fun d => { d with ltb := d.ltb.tail }
  | .queue i => x.takeQueue i

/-- The queues in rotation after the one served last. -/
def rotation (last : Nat) : List TokSrc := (List.range 8).map fun j => .queue ((last + 1 + j) % 8)

/-! ## The match unit (R71 to R74) -/

/-- What the match unit can do with a token of the tile's COURSE (R72). -/
inductive MatchCase where
  | unbound
  | fill (entry operand : Nat)
  | fresh (entry action operand : Nat)
  | hold
  | full
  deriving DecidableEq, Repr

def MatchEntry.isPart (m : MatchEntry) : Bool := m.state = .part

/-- Cases 2, 3 and 4 of R72. -/
def Tile.matchCase (x : Tile) (k : Token) : MatchCase :=
  match x.actionFor k.slot with
  | none => .unbound
  | some (n, i) =>
    match x.df.table.find? fun e => e.2.action = n && e.2.tag = k.tag && e.2.isPart with
    | some (j, m) => if (m.ops.getD i none).isNone then .fill j i else .hold
    | none =>
      if (x.df.table.filter fun e => e.2.action = n).length < bitsW (x.act0 n) 26 2 + 1 then
        match tFree x.df.table 32 with
        | some j => .fresh j n i
        | none => .full
      else .hold

def MatchCase.takes : MatchCase → Bool
  | .unbound | .fill .. | .fresh .. => true
  | .hold | .full => false

/-- A token for the match unit: the source presents it, and no steering rule names its slot. -/
def Tile.matchTok (x : Tile) (src : TokSrc) : Option Token :=
  (x.srcTok src).filter fun k => (x.steerFor k.slot).isNone

/-- The source from which the match unit takes a token now: the first that presents one it can accept, or a stale one. -/
def Tile.matchSource (x : Tile) : Option TokSrc :=
  ([TokSrc.steering, .local] ++ rotation x.df.lastQ).find? fun src =>
    match x.matchTok src with
    | some k => tagCourse k.tag ≠ x.course || (x.matchCase k).takes
    | none => false

/-- An entry with a further operand; with its last one it is READY in the next cycle (R74). -/
def MatchEntry.put (m : MatchEntry) (i : Nat) (k : Token) (now : Nat) : MatchEntry :=
  let ops := m.ops.set i (some k)
  { m with ops := ops, state := if ops.all Option.isSome then .ready (now + 1) else .part }

/-- The queue that served the unit last. -/
def srcQueue (last : Nat) : TokSrc → Nat
  | .queue i => i
  | _ => last

/-- The match unit takes the token of `src` into the table (R72). -/
def State.accept (s : State) (t : Nat) (src : TokSrc) (k : Token) : State :=
  let now := s.now
  let c := (s.tile t).matchCase k
  let s := s.modTile t fun x => (x.srcPop src).modDf fun d =>
    { d with lastQ := srcQueue d.lastQ src, matchFullRaised := false, matchAt := some now }
  match c with
  | .fill j i => s.modTile t (·.modDf fun d =>
      match tGet? d.table j with
      | some m => { d with table := tPut d.table j (m.put i k now) }
      | none => d)
  | .fresh j n i => s.modTile t fun x => x.modDf fun d =>
      let m : MatchEntry := { action := n, tag := k.tag, ops := List.replicate (x.actNops n) none, state := .part }
      { d with table := tPut d.table j (m.put i k now) }
  | .unbound => (s.modTile t (·.count cUnbound 1)).releaseTok t k
  | _ => s

/-- A stale token is discarded where the unit meets it (R84). -/
def State.dropStale (s : State) (t : Nat) (src : TokSrc) (k : Token) : State :=
  ((s.modTile t (·.srcPop src)).stale t).releaseTok t k

/-- The match unit considers the token of one source: it takes it where that source's turn has come and the unit has
taken none in this cycle (R70), and raises MATCH_FULL where the full table alone holds it back (R72, R73). -/
def execMatchToken (t : Nat) (src : TokSrc) (s : State) : Out :=
  onTile t s fun s =>
    let x := s.tile t
    match x.matchTok src with
    | none => .next s
    | some k =>
      if !x.unitsOn then .next s
      else if x.matchSource = some src then
        if x.df.matchAt = some s.now then .next s
        else if tagCourse k.tag ≠ x.course then .next (s.dropStale t src k) else .next (s.accept t src k)
      else if x.matchCase k = .full && tagCourse k.tag = x.course && !x.df.matchFullRaised then
        .next ((s.modTile t (·.modDf fun d => { d with matchFullRaised := true })).asyncTrap t 0x0B
          (k.tag.zeroExtend 32) 0 k.tag.toNat)
      else .next s

/-! ## Firing and retiring (R54, R74, R75, R77) -/

/-- The READY entry that starts first: the earliest cycle, then the lowest action number. -/
def firstReady (now : Nat) (m : Tab MatchEntry) : Option (Nat × MatchEntry) :=
  m.foldl (fun b e =>
    match e.2.state with
    | .ready a =>
      if now < a then b else
      match b with
      | some (_, n) =>
        let c := match n.state with | .ready c => c | _ => 0
        if a < c || (a = c && e.2.action < n.action) then some e else b
      | none => some e
    | _ => b) none

/-- The entry point of a PRED action: HANDLER + 4k (R77). -/
def Tile.entryPoint (x : Tile) (m : MatchEntry) : Nat :=
  let h := bitsW (x.act0 m.action) 13 13
  if bitW (x.act0 m.action) 28 then
    let p := match m.ops.getLast? with | some (some k) => k.value | _ => 0
    let k := if m.ops.length ≤ 3 then (if p = 0 then 0 else 1) else min (p.toNat % 4) 2
    h + 4 * k
  else h

/-- Operand i to s(12 + i) (R54). -/
def Seq.loadOps (q : Seq) (ops : List (Option Token)) : Seq :=
  (List.range ops.length).foldl (fun q i =>
    match ops.getD i none with
    | some k => q.setReg (BitVec.ofNat 4 (12 + i)) k.value
    | none => q) q

/-- An action fires: operands, TAG and PC; an entry point beyond the store is a trap, and the entry drains (R57, R77). -/
def State.fire (s : State) (t j : Nat) (m : MatchEntry) : State :=
  let x := s.tile t
  let h := bitsW (x.act0 m.action) 13 13
  let e := x.entryPoint m
  let bad := decide (0x2000 ≤ e)
  let s := s.modTile t fun x =>
    (x.modDf fun d => { d with table := tPut d.table j { m with state := if bad then .draining else .running } }).modSeq
      fun q => { q.loadOps m.ops with tag := m.tag, action := m.action }
  if bad then s.enterTrap t 0x02 (BitVec.ofNat 13 h) (BitVec.ofNat 32 e) 0 0
  else s.modTile t (·.modSeq fun q =>
    { q with state := .handler, pc := BitVec.ofNat 32 e, running := some j, wdog := 0 })

/-- The first READY entry's action fires while the sequencer is IDLE and no trap is due (R54, R74): a pending asynchronous
cause is entered before it (DESIGN CHOICE, log 76). -/
def execActionFire (t : Nat) (s : State) : Out :=
  onTile t s fun s =>
    let x := s.tile t
    match firstReady s.now x.df.table with
    | some (j, m) =>
      if x.seq.state = .idle && (x.seq.pend.isEmpty || !x.seq.trapEn) then .next (s.fire t j m) else .next s
    | none => .next s

/-- Entry `e` retires when it drains and nothing it is charged with is outstanding: its queue messages are released. -/
def execEntryRetire (t e : Nat) (s : State) : Out :=
  onTile t s fun s =>
    match tGet? (s.tile t).df.table e with
    | some m =>
      if m.state = .draining && m.desc = 0 && m.rops = 0 then
        let s := s.modTile t (·.modDf fun d => { d with table := tDel d.table e })
        .next (m.ops.foldl (fun s o => match o with | some k => s.releaseTok t k | none => s) s)
      else .next s
    | none => .next s

/-! ## The steering unit (R78 to R82) -/

/-- Is the token its rule's data token? -/
def Tile.isData (x : Tile) (r : Nat) (k : Token) : Bool := ruleD (x.df.rules.getD r (0, 0)) = k.slot

def SteerPend.partner (p : SteerPend) (r : Nat) (isData : Bool) (tag : BitVec 14) : Bool :=
  p.rule = r && p.isData ≠ isData && p.tok.tag = tag

/-- Can the steering unit accept the token: its partner waits, or a free entry and no twin (R80)? -/
def Tile.steerTakes (x : Tile) (r : Nat) (k : Token) : Bool :=
  let d := x.isData r k
  x.df.pend.any (·.partner r d k.tag)
    || (x.df.pend.length < 16 && !x.df.pend.any fun p => p.rule = r && p.isData = d && p.tok.tag = k.tag)

def Tile.steerTok (x : Tile) (src : TokSrc) : Option (Nat × Token) :=
  match src with
  | .steering => none
  | src => (x.srcTok src).bind fun k => (x.steerFor k.slot).map fun r => (r, k)

def Tile.steerSource (x : Tile) : Option TokSrc :=
  ([TokSrc.local] ++ rotation x.df.lastQs).find? fun src =>
    match x.steerTok src with
    | some (r, k) => tagCourse k.tag ≠ x.course || x.steerTakes r k
    | none => false

/-- The target byte that a control value selects (Table 03.4). -/
def steerTarget (r : Word × Word) (v : Word) : Nat :=
  if bitW r.1 30 then ruleTgt r (v.toNat % 4) else ruleTgt r (if v = 0 then 0 else 1)

/-- The data token is routed: delivered as a steering output, or discarded with its message; the control token's message
is released (R80). Any number of outputs may wait for the match unit: none holds the steering unit back (DESIGN CHOICE,
log 77). -/
def State.steerRoute (s : State) (t r : Nat) (data control : Token) : State :=
  let b := steerTarget ((s.tile t).df.rules.getD r (0, 0)) control.value
  let s := s.releaseTok t control
  if bitsN b 7 1 = 1 then
    s.modTile t (·.modDf fun d => { d with out := d.out ++ [{ data with slot := b % 16 }] })
  else s.releaseTok t data

/-- The steering unit takes a token: matched with its partner, or placed in the pending buffer (R80). -/
def State.steer (s : State) (t : Nat) (src : TokSrc) (r : Nat) (k : Token) : State :=
  let x := s.tile t
  let d := x.isData r k
  let now := s.now
  let s := s.modTile t fun x => (x.srcPop src).modDf fun f =>
    { f with lastQs := srcQueue f.lastQs src, matchFullRaised := false, steerAt := some now }
  match x.df.pend.find? (·.partner r d k.tag) with
  | some p =>
    let s := s.modTile t (·.modDf fun f => { f with pend := f.pend.filter fun q => !q.partner r d k.tag })
    if d then s.steerRoute t r k p.tok else s.steerRoute t r p.tok k
  | none => s.modTile t (·.modDf fun f => { f with pend := f.pend ++ [⟨r, d, k, 0, false⟩] })

/-- The steering unit considers the token of one source; it takes at most one in a cycle (R70). -/
def execSteerToken (t : Nat) (src : TokSrc) (s : State) : Out :=
  onTile t s fun s =>
    let x := s.tile t
    match x.steerTok src with
    | none => .next s
    | some (r, k) =>
      if x.unitsOn && x.steerSource = some src && x.df.steerAt ≠ some s.now then
        if tagCourse k.tag ≠ x.course then .next (s.dropStale t src k) else .next (s.steer t src r k)
      else .next s

/-- Pending entry `k` has waited TILE_STEER_WAIT.WAIT cycles: its count stops, and cause 0x0A becomes pending (R81). -/
def execSteerTimeout (t k : Nat) (s : State) : Out :=
  onTile t s fun s =>
    let x := s.tile t
    match x.df.pend[k]? with
    | some p =>
      if x.df.steerWait ≤ p.count && !p.stopped then
        .next ((s.modTile t (·.modDf fun d => { d with pend := d.pend.set k { p with stopped := true } })).asyncTrap t 0x0A
          (p.tok.tag.zeroExtend 32) 0 p.tok.tag.toNat)
      else .next s
    | none => .next s

/-! ## Completion of descriptors (R48, R69, R75) -/

/-- The first descriptor of an engine's queue leaves it, and its entry's charge falls. -/
def State.retireDesc (s : State) (t : Nat) (mat : Bool) (e : Option Nat) : State :=
  s.modTile t fun x => (x.modEng fun g => if mat then { g with mat := g.mat.tail } else { g with vec := g.vec.tail }).charge
    e fun m => { m with desc := m.desc - 1 }

/-- A descriptor is complete: with a completion slot its token enters the local token buffer, or waits for room there and
the descriptor remains outstanding (R69); without one it leaves at once. -/
def State.finishDesc (s : State) (t : Nat) (mat : Bool) (d : Desc) (tok : Option Token) : State :=
  match tok with
  | none => s.retireDesc t mat d.entry
  | some k =>
    match s.putLocal t k with
    | some s => s.retireDesc t mat d.entry
    | none => s.modTile t fun x =>
        (x.modDf fun f => { f with comp := f.comp ++ [(k, mat, d.entry)] }).modEng fun g =>
          if mat then { g with mat := { d with phase := .delivering } :: g.mat.tail }
          else { g with vec := { d with phase := .delivering } :: g.vec.tail }

/-- The oldest waiting completion token enters the local token buffer when there is room (R69). -/
def execCompletionTokenEnter (t : Nat) (s : State) : Out :=
  onTile t s fun s =>
    match (s.tile t).df.comp with
    | [] => .next s
    | (k, mat, e) :: rest =>
      match (s.modTile t (·.modDf fun d => { d with comp := rest })).putLocal t k with
      | some s => .next (s.retireDesc t mat e)
      | none => .next s

end Sys2Proof.Machine
end

