-- ==== Sys2Proof/Machine/Matrix.lean ====
section
/-! DEFINITION. The matrix engine: descriptors, checks, scoreboard, dense, N:M and row-segment operands, groups and
accumulation, completion, and the issue gate (R113 to R130, R147 to R157). A descriptor reads B when B is latched and A, C
and their arrays when it completes (log 16). -/

namespace Sys2Proof.Machine

/-! ## The descriptor (R115, R116) -/

structure MDesc where
  aOff : Nat
  aStr : Nat
  bOff : Nat
  bStr : Nat
  cOff : Nat
  cStr : Nat
  asOff : Nat
  assOff : Nat
  bsOff : Nat
  meta_ : Nat
  m : Nat
  k : Nat
  n : Nat
  groupF : Nat
  afmt : Nat
  bfmt : Nat
  outf : Nat
  acc : Bool
  tra : Bool
  trb : Bool
  sparse : Nat
  consB : Bool
  cslot : Nat
  cslotEn : Bool
  cval : Bool
  nmpat : Nat
  reserved : Bool
  deriving DecidableEq, Repr

def mdesc (ws : List Word) : MDesc :=
  let w := fun i lo n => bitsW (ws.getD i 0) lo n
  { aOff := w 0 0 16, aStr := w 0 16 16, bOff := w 1 0 16, bStr := w 1 16 16, cOff := w 2 0 16, cStr := w 2 16 16,
    asOff := w 3 0 16, assOff := w 3 16 16, bsOff := w 4 0 16, meta_ := w 4 16 16,
    m := w 5 0 12 + 1, k := w 5 12 12 + 1, n := w 5 24 3 + 1, groupF := w 5 27 2,
    afmt := w 6 0 4, bfmt := w 6 4 4, outf := w 6 8 2, acc := w 6 10 1 = 1, tra := w 6 11 1 = 1, trb := w 6 12 1 = 1,
    sparse := w 6 13 2, consB := w 6 15 1 = 1, cslot := w 6 16 4, cslotEn := w 6 20 1 = 1, cval := w 6 21 1 = 1,
    nmpat := w 6 22 2, reserved := w 5 29 3 ≠ 0 || w 6 24 8 ≠ 0 }

/-- Group length (R115). -/
def MDesc.group (d : MDesc) : Nat := if d.groupF = 0 then 32 else if d.groupF = 1 then 16 else 8
/-- Bytes of an element of C. -/
def MDesc.ce (d : MDesc) : Nat := if d.outf = 0 then 4 else 2
def MDesc.ae (d : MDesc) : Nat := fmtBits d.afmt / 8
def MDesc.be (d : MDesc) : Nat := fmtBits d.bfmt / 8

/-- Positions and values of an N:M group (Table 07.1). -/
def MDesc.nmM (d : MDesc) : Nat := if d.nmpat = 2 then 8 else 4
def MDesc.nmN (d : MDesc) : Nat := if d.nmpat = 1 then 1 else 2
def MDesc.nmG (d : MDesc) : Nat := ceilDiv d.k d.nmM
def MDesc.nmBits (d : MDesc) : Nat := if d.nmpat = 0 then 6 else if d.nmpat = 1 then 4 else 8
/-- Metadata bytes of a row. -/
def MDesc.mr (d : MDesc) : Nat :=
  if d.nmpat = 0 then 3 * ceilDiv d.nmG 4 else if d.nmpat = 1 then ceilDiv d.nmG 2 else d.nmG
def MDesc.slotBytes (d : MDesc) : Nat := elemBytes d.afmt (d.nmG * d.nmN)

def up8 (n : Nat) : Nat := 8 * ceilDiv n 8

/-! ## The ranges it touches (R119, R126): runs of bytes -/

/-- The runs of A: offset and length of each. In N:M form a row runs over its whole A_STRIDE, escape bytes that no group
uses included (DESIGN CHOICE, log 79). -/
def MDesc.aRuns (d : MDesc) : List (Nat × Nat) :=
  if d.sparse = 0 then
    if d.tra then (List.range (up8 d.k)).map fun k => (d.aOff + k * d.aStr, up8 d.m * d.ae)
    else (List.range d.m).map fun m => (d.aOff + m * d.aStr, elemBytes d.afmt d.k)
  else if d.sparse = 1 then (List.range d.m).map fun m => (d.aOff + m * d.aStr, d.aStr)
  else [(d.aOff, d.aStr)]

def MDesc.bRuns (d : MDesc) : List (Nat × Nat) :=
  if d.sparse = 3 then [(d.bOff, d.bStr)]
  else if d.trb then (List.range (up8 d.k)).map fun k => (d.bOff + k * d.bStr, 8 * d.be)
  else (List.range d.n).map fun n => (d.bOff + n * d.bStr, elemBytes d.bfmt d.k)

def MDesc.bsRuns (d : MDesc) : List (Nat × Nat) := if isBlock d.bfmt then [(d.bsOff, d.n * (d.k / 32))] else []
def MDesc.asRuns (d : MDesc) : List (Nat × Nat) := if isBlock d.afmt then [(d.asOff, d.m * (d.k / 32))] else []
def MDesc.assRuns (d : MDesc) : List (Nat × Nat) := if d.afmt = 15 then [(d.assOff, 4 * d.m * (d.k / 32))] else []
def MDesc.metaRuns (d : MDesc) : List (Nat × Nat) := if d.sparse = 1 then [(d.meta_, d.m * d.mr)] else []
def MDesc.cRuns (d : MDesc) : List (Nat × Nat) := (List.range d.n).map fun n => (d.cOff + n * d.cStr, d.m * d.ce)

/-- The lowest and the highest byte of some runs (R126); none where they are empty. -/
def hull (rs : List (Nat × Nat)) : Option (Nat × Nat) :=
  (rs.filter fun r => r.2 ≠ 0).foldl (fun h r =>
    match h with
    | none => some (r.1, r.1 + r.2 - 1)
    | some (lo, hi) => some (min lo r.1, max hi (r.1 + r.2 - 1))) none

def hullsMeet (a b : Option (Nat × Nat)) : Bool :=
  match a, b with
  | some x, some y => overlaps x.1 x.2 y.1 y.2
  | _, _ => false

def beyond (rs : List (Nat × Nat)) : Bool :=
  match hull rs with
  | some h => 0xFFFF < h.2
  | none => false

/-! ## Checks (Table 05.3) -/

def transFmt (f : Nat) : Bool := f ≤ 4 || f = 8 || f = 9

/-- Alignment of an operand (code 9): every row of a 6-bit one starts at a multiple of 3; the offset and the stride of a
16-bit or 32-bit one are multiples of its element size, in use or not. `isStride` is false for a stream, whose stride
field is its length (R152); `rows` says that a 6-bit operand has more rows than one. -/
def misplaced (f off stride : Nat) (isStride rows : Bool) : Bool :=
  let n := if is6bit f then 3 else if 16 ≤ fmtBits f then fmtBits f / 8 else 1
  off % n ≠ 0 || (isStride && (rows || !is6bit f) && stride % n ≠ 0)

def MDesc.stream (d : MDesc) : Bool := 2 ≤ d.sparse

def MDesc.check (d : MDesc) (off : Nat) : Nat :=
  let block := isBlock d.afmt || isBlock d.bfmt
  let c := hull d.cRuns
  let colBytes := if d.trb then d.k * d.be else elemBytes d.bfmt d.k
  let latch := if d.sparse = 3 then d.bStr else d.n * (colBytes + if isBlock d.bfmt then d.k / 32 else 0)
  if d.reserved || d.groupF = 3 || d.outf = 3 || d.nmpat = 3 || (!isBlock d.afmt && d.asOff ≠ 0)
      || (d.afmt ≠ 15 && d.assOff ≠ 0) || (!isBlock d.bfmt && d.bsOff ≠ 0) || (d.sparse = 0 && d.meta_ ≠ 0) then 1
  else if d.bfmt = 15 || (d.cslotEn && d.cslot < 8) || (d.stream && (block || is6bit d.afmt || is6bit d.bfmt)) then 2
  else if block && (d.k % 32 ≠ 0 || d.groupF ≠ 0) then 3
  else if (d.tra && !transFmt d.afmt) || (d.trb && !transFmt d.bfmt) || ((d.tra || d.trb) && d.sparse ≠ 0) then 4
  else if d.acc && d.outf ≠ 0 then 5
  else if beyond d.aRuns || beyond d.bRuns || beyond d.cRuns || beyond d.asRuns || beyond d.assRuns || beyond d.bsRuns
      || beyond d.metaRuns then 6
  else if hullsMeet c (some (off, off + 31)) || hullsMeet c (hull d.aRuns) || hullsMeet c (hull d.asRuns)
      || hullsMeet c (hull d.assRuns) || hullsMeet c (hull d.metaRuns) then 7
  else if 4096 < latch then 8
  else if misplaced d.afmt d.aOff d.aStr (!d.stream) (1 < d.m)
      || misplaced d.bfmt d.bOff d.bStr (d.sparse ≠ 3) (1 < d.n)
      || d.cOff % d.ce ≠ 0 || d.cStr % d.ce ≠ 0 || (d.sparse = 1 && d.nmpat = 0 && d.meta_ % 3 ≠ 0) then 9
  else if (d.sparse = 0 && !d.tra && 1 < d.m && d.aStr < elemBytes d.afmt d.k)
      || (d.tra && 1 < d.k && d.aStr < d.m * d.ae)
      || (d.sparse = 1 && d.aStr < d.slotBytes)
      || (d.trb && 1 < d.k && d.bStr < d.n * d.be)
      || (d.sparse ≠ 3 && !d.trb && 1 < d.n && d.bStr < elemBytes d.bfmt d.k)
      || (1 < d.n && d.cStr < d.m * d.ce) then 10
  else 0

/-! ## Operands -/

/-- What the arithmetic reads: bytes and uncorrectable offsets. -/
structure View where
  rd : Nat → Nat
  bad : Nat → Bool

def Pad.badAt (p : Pad) (a : Nat) : Bool := p.bankOn a && tGet? p.ecc (rowOf (a % 65536)) = some .double
def padView (p : Pad) : View := ⟨fun a => (p.read a).toNat, p.badAt⟩

/-- Element `i` of the array at `base`: its code, and whether an uncorrectable word covers it (R127). -/
def View.elem (v : View) (base f i : Nat) : Nat × Bool :=
  let sp := elemSpan (fmtBits f) i
  (elemAt (fun j => v.rd (base + j)) (fmtBits f) i, (List.range sp.2).any fun j => v.bad (base + sp.1 + j))

/-- An operand element: its value with its sub-scale, the flags of reading it, its code, and whether R95 flushed it. -/
structure Opnd where
  val : Num
  flags : AFlags
  code : Nat
  flushed : Bool := false
  deriving DecidableEq, Repr

/-- Is the code a subnormal of its format (R89)? -/
def subnormal (f c : Nat) : Bool :=
  let ff := ffmt (elemFmt f)
  elemFmt f < 8 && bitsN c ff.m ff.w = 0 && bitsN c 0 ff.m ≠ 0

/-- An element with its sub-scale, `subFlushed` where the sub-scale is a subnormal. -/
def opnd (f : Nat) (e : Nat × Bool) (sub : Num) (subFlushed : Bool := false) : Opnd :=
  if e.2 then ⟨.nan, 0, e.1, false⟩
  else
    let d := decode f e.1
    match d.1, sub with
    | .nan, _ => ⟨.nan, d.2, e.1, false⟩
    | _, .nan => ⟨.nan, d.2, e.1, false⟩
    | .fin n x, .fin m y => ⟨.fin (n != m) (x * y), d.2, e.1, subFlushed || subnormal f e.1⟩
    | v, _ => ⟨v, d.2, e.1, subFlushed⟩

/-- The element where its block's scale reads as NaN (R94). -/
def Opnd.nanned (o : Opnd) : Opnd := { o with val := .nan, flushed := false }

def noSub : Num := .fin false 1

/-- The sub-scale of A's element and whether it is a subnormal: block b of row m, sub-scale (k mod 32) / 8 (R117). -/
def MDesc.aSub (d : MDesc) (v : View) (m k : Nat) : Num × Bool :=
  if d.afmt = 15 then
    let a := d.assOff + 4 * (m * (d.k / 32) + k / 32) + k % 32 / 8
    if v.bad a then (.nan, false) else (decodeF (ffmt 4) (v.rd a), subnormal 4 (v.rd a))
  else (noSub, false)

/-- A's element of a code with its sub-scale. -/
def MDesc.aOpnd (d : MDesc) (v : View) (m k : Nat) (e : Nat × Bool) : Opnd :=
  opnd d.afmt e (d.aSub v m k).1 (d.aSub v m k).2

/-- Dense A[m][k] (R114, R118). -/
def MDesc.aElem (d : MDesc) (v : View) (m k : Nat) : Opnd :=
  let e := if d.tra then v.elem (d.aOff + k * d.aStr + m * d.ae) d.afmt 0 else v.elem (d.aOff + m * d.aStr) d.afmt k
  d.aOpnd v m k e

/-- B[k][n], from the latch. -/
def MDesc.bElem (d : MDesc) (v : View) (k n : Nat) : Opnd :=
  let e := if d.trb then v.elem (d.bOff + k * d.bStr + n * d.be) d.bfmt 0 else v.elem (d.bOff + n * d.bStr) d.bfmt k
  opnd d.bfmt e noSub

def scaleAt (v : View) (a : Nat) : Option Int := if v.bad a then none else decodeScale (v.rd a)

/-- The scale exponents of A and of B in the group that starts at k, none for a scale that reads as NaN (R94, R105 step
6, R117). -/
def MDesc.scale (d : MDesc) (a b : View) (m n k : Nat) : Option Int × Option Int :=
  (if isBlock d.afmt then scaleAt a (d.asOff + m * (d.k / 32) + k / 32) else some 0,
   if isBlock d.bfmt then scaleAt b (d.bsOff + n * (d.k / 32) + k / 32) else some 0)

/-! ## Accumulators (R108, R121, R122) -/

/-- An accumulator: its binary32 pattern and its flags so far. -/
structure Acc where
  w : Nat
  fl : AFlags
  deriving DecidableEq, Repr

/-- The products of a group: an operand that R95 flushes contributes none; where a scale reads as NaN so does every element
of its block (R94, R121). -/
def products (ps : List (Opnd × Opnd)) (s : Option Int × Option Int) : List (Num × Num) :=
  let qs := ps.map fun p => (if s.1.isNone then p.1.nanned else p.1, if s.2.isNone then p.2.nanned else p.2)
  (qs.filter fun p => !p.1.flushed && !p.2.flushed).map fun p => (p.1.val, p.2.val)

/-- Add a group to an accumulator; a group without products adds +0 (R121). -/
def MDesc.addGroup (d : MDesc) (c : Acc) (ps : List (Opnd × Opnd)) (s : Option Int × Option Int) : Acc :=
  let e := s.1.getD 0 + s.2.getD 0
  let args := [d.afmt, d.bfmt, (e + 1024).toNat] ++ ps.map (fun p => p.1.code * 65536 * 65536 + p.2.code)
  let g := Sys2Proof.Machine.group args (products ps s) e (isBlock d.afmt || isBlock d.bfmt)
  let fl := ps.foldl (fun f p => f ||| p.1.flags ||| p.2.flags) (0 : AFlags)
  let r := add32 3 [] c.w g.1
  ⟨r.1, c.fl ||| fl ||| g.2 ||| r.2⟩

/-- The initial accumulator (R113, R121): +0, or C's element by R95 and R97. -/
def MDesc.init (d : MDesc) (v : View) (m n : Nat) : Acc :=
  if d.acc then
    let a := d.cOff + n * d.cStr + 4 * m
    let e := v.elem a 0 0
    if e.2 then ⟨nan32, fNV⟩
    else match num32 e.1 with
      | .nan => ⟨nan32, fNV⟩
      | x => ⟨num2nat x, 0⟩
  else ⟨0, 0⟩

/-- Cut a list into pieces of `n`. -/
def chunks {α : Type} (n : Nat) (l : List α) : List (List α) :=
  (List.range (ceilDiv l.length n)).map fun i => (l.drop (n * i)).take n

/-! ## N:M rows (R147 to R149) -/

/-- Occurrences of the SPARSE_ events. -/
structure Occ where
  overs : Nat := 0
  range : Nat := 0
  order : Nat := 0
  deriving DecidableEq, Repr

def Occ.add (a b : Occ) : Occ := ⟨a.overs + b.overs, a.range + b.range, a.order + b.order⟩
def Occ.any (a : Occ) : Bool := a.overs + a.range + a.order ≠ 0

/-- A row of A as its positions name it: none for a position that forms no product. -/
structure NmRow where
  vals : List (Option (Nat × Bool))
  /-- escape elements that the groups so far take, and those of them that are read (R149) -/
  used : Nat := 0
  read : Nat := 0
  occ : Occ := {}
  deriving DecidableEq, Repr

/-- Where row m's escape area begins, from the row's start, and the elements it has room for. -/
def MDesc.escStart (d : MDesc) : Nat := 4 * ceilDiv d.slotBytes 4
def MDesc.escRoom (d : MDesc) : Nat :=
  let n := d.aStr - d.escStart
  if is6bit d.afmt then 4 * (n / 3) else n * 8 / fmtBits d.afmt

/-- The two index fields of a metadata entry. -/
def MDesc.nmIdx (d : MDesc) (e i : Nat) : Nat := if d.nmpat = 2 then bitsN e (2 + 3 * i) 3 else bitsN e (2 + 2 * i) 2

/-- Group g of row m, after the groups before it. -/
def MDesc.nmGroup (d : MDesc) (v : View) (m : Nat) (r : NmRow) (g : Nat) : NmRow :=
  let metaFmt := if d.nmpat = 0 then 5 else if d.nmpat = 1 then 10 else 9
  let e := v.elem (d.meta_ + m * d.mr) metaFmt g
  let row := d.aOff + m * d.aStr
  let slot := fun j => v.elem row d.afmt (g * d.nmN + j)
  let base := g * d.nmM
  let put := fun (vs : List (Option (Nat × Bool))) (i : Nat) (x : Nat × Bool) => vs.set (base + i) (some x)
  let cnt := e.1 % 4
  if e.2 then { r with vals := (List.range d.nmM).foldl (fun vs i => put vs i (0, true)) r.vals }
  else if cnt = 0 then r
  else if cnt = 3 then
    if d.escRoom < r.used + d.nmM then { r with occ := r.occ.add ⟨1, 0, 0⟩ }
    else { r with
      used := r.used + d.nmM
      read := r.used + min d.nmM (d.k - base)
      vals := (List.range d.nmM).foldl (fun vs i =>
        if base + i < d.k then put vs i (v.elem (row + d.escStart) d.afmt (r.used + i)) else vs) r.vals }
  else if cnt = 2 && d.nmN = 1 then { r with occ := r.occ.add ⟨1, 0, 0⟩ }
  else if cnt = 2 && d.nmIdx e.1 1 ≤ d.nmIdx e.1 0 then { r with occ := r.occ.add ⟨0, 0, 1⟩ }
  else (List.range cnt).foldl (fun r j =>
    let i := d.nmIdx e.1 j
    if base + i < d.k then { r with vals := put r.vals i (slot j) } else { r with occ := r.occ.add ⟨0, 1, 0⟩ }) r

def MDesc.nmRow (d : MDesc) (v : View) (m : Nat) : NmRow :=
  (List.range d.nmG).foldl (d.nmGroup v m) { vals := List.replicate d.k none }

/-! ## Dense and N:M outputs (R113, R121) -/

/-- The pairs of a group of row m and column n that starts at k; `row` is the N:M row where A is in that form. -/
def MDesc.pairs (d : MDesc) (a b : View) (row : Option NmRow) (m n k : Nat) : List (Opnd × Opnd) :=
  ((List.range (min d.group (d.k - k))).map (k + ·)).filterMap fun j =>
    match row with
    | none => some (d.aElem a m j, d.bElem b j n)
    | some r => match r.vals.getD j none with
      | some e => some (d.aOpnd a m j e, d.bElem b j n)
      | none => none

def MDesc.output (d : MDesc) (a b : View) (row : Option NmRow) (m n : Nat) : Acc :=
  (List.range (ceilDiv d.k d.group)).foldl (fun c g =>
    d.addGroup c (d.pairs a b row m n (g * d.group)) (d.scale a b m n (g * d.group))) (d.init a m n)

/-! ## Row-segment streams (R151 to R156) -/

/-- An entry of an accepted segment: index (none where its word is uncorrectable), value code and whether it is bad. -/
structure SegEntry where
  idx : Option Nat
  code : Nat
  bad : Bool
  deriving DecidableEq, Repr

structure Seg where
  row : Nat
  /-- entries in order; none where the entry contributes zero -/
  entries : List (Option SegEntry)
  deriving DecidableEq, Repr

/-- A stream as it is read: accepted segments, occurrences, whether a header word was uncorrectable, bytes read. -/
structure Stream where
  segs : List Seg := []
  occ : Occ := {}
  headBad : Bool := false
  bytes : Nat := 0
  deriving DecidableEq, Repr

/-- Bytes of a segment (R151): `b` bits a value, 0 where it holds indexes only. -/
def segSize (count b : Nat) : Nat := 4 + 4 * ceilDiv count 2 + 4 * ceilDiv (count * b) 32

def View.le (v : View) (a n : Nat) : Nat := leNat ((List.range n).map fun i => BitVec.ofNat 8 (v.rd (a + i)))
def View.anyBad (v : View) (a n : Nat) : Bool := (List.range n).any fun i => v.bad (a + i)

/-- The entries of a segment at `a`: order first, then range (R154, R155). -/
def segEntries (v : View) (a f count k : Nat) (values : Bool) : List (Option SegEntry) × Occ :=
  let r := (List.range count).foldl (fun (st : List (Option SegEntry) × Occ × Option Nat × Bool) i =>
    let (es, occ, prev, stopped) := st
    if stopped then (es ++ [none], occ, prev, true)
    else
      let ia := a + 4 + 2 * i
      let e := if values then v.elem (a + 4 + 4 * ceilDiv count 2) f i else (0, false)
      if v.anyBad ia 2 then (es ++ [some ⟨none, e.1, true⟩], occ, prev, false)
      else
        let idx := v.le ia 2
        let low := match prev with | some p => decide (idx ≤ p) | none => false
        if low then (es ++ [none], occ.add ⟨0, 0, 1⟩, prev, true)
        else if k ≤ idx then (es ++ [none], occ.add ⟨0, 1, 0⟩, some idx, false)
        else (es ++ [some ⟨some idx, e.1, e.2⟩], occ, some idx, false)) ([], {}, none, false)
  (r.1, r.2.1)

/-- Read a stream of `len` bytes at `a` (Table 07.3). `rows` bounds ROW, `k` the indexes; an index list has IDX = 1 and no
values. -/
def readStream (v : View) (a len f rows k : Nat) (values : Bool) : Nat → Nat → Option Nat → Stream → Stream
  | 0, _, _, st => st
  | fuel + 1, p, prev, st =>
    if len < p + 4 then { st with bytes := len }
    else if v.anyBad (a + p) 4 then { st with headBad := true, bytes := p + 4 }
    else
      let h := v.le (a + p) 4
      if bitsN h 31 1 = 1 then { st with bytes := p + 4 }
      else
        let count := bitsN h 12 8 + 1
        let idx := bitsN h 30 1 = 1
        let size := segSize count (if idx then 0 else fmtBits f)
        let row := bitsN h 0 12
        let next := fun prev st => readStream v a len f rows k values fuel (p + size) prev st
        if len < p + size then { st with occ := st.occ.add ⟨1, 0, 0⟩, bytes := len }
        else if bitsN h 21 9 ≠ 0 || idx = values then next prev { st with occ := st.occ.add ⟨1, 0, 0⟩ }
        else if rows ≤ row then next prev { st with occ := st.occ.add ⟨0, 1, 0⟩ }
        else if (match prev with | some q => decide (row < q) | none => false) then
          next prev { st with occ := st.occ.add ⟨0, 0, 1⟩ }
        else
          let e := segEntries v (a + p) f count k values
          next (some row) { st with segs := st.segs ++ [⟨row, e.1⟩], occ := st.occ.add e.2 }

def MDesc.aStream (d : MDesc) (v : View) : Stream := readStream v d.aOff d.aStr d.afmt d.m d.k true (d.aStr / 4 + 1) 0 none {}
def MDesc.bStream (d : MDesc) (v : View) : Stream := readStream v d.bOff d.bStr d.bfmt d.n d.k true (d.bStr / 4 + 1) 0 none {}

def MDesc.segOpnd (f : Nat) (e : SegEntry) : Opnd := opnd f (e.code, e.bad || e.idx.isNone) noSub

/-- SPARSE 2: a segment's products for column n, in runs of entries (R153). -/
def MDesc.seg2 (d : MDesc) (b : View) (n : Nat) (c : Acc) (g : Seg) : Acc :=
  (chunks d.group g.entries).foldl (fun c es =>
    let ps := es.filterMap fun e => e.map fun e =>
      (MDesc.segOpnd d.afmt e, match e.idx with | some k => d.bElem b k n | none => ⟨.fin false 0, 0, 0, false⟩)
    d.addGroup c ps (some 0, some 0)) c

/-- The pairs of equal indexes of two segments, in order; an entry with an unreadable index makes a NaN product. -/
def mergePairs (d : MDesc) (x y : Seg) : List (Opnd × Opnd) :=
  let bs := y.entries.filterMap id
  let good := (x.entries.filterMap id).filterMap fun e =>
    match e.idx with
    | none => some (MDesc.segOpnd d.afmt e, ⟨.fin false 0, 0, 0, false⟩)
    | some k => (bs.find? fun f => f.idx = some k).map fun f => (MDesc.segOpnd d.afmt e, MDesc.segOpnd d.bfmt f)
  good ++ (bs.filter fun f => f.idx.isNone).map fun f => (⟨.fin false 0, 0, 0, false⟩, MDesc.segOpnd d.bfmt f)

/-- SPARSE 3: a segment of A merged with each segment of column n in turn (R154). -/
def MDesc.seg3 (d : MDesc) (bs : Stream) (n : Nat) (c : Acc) (g : Seg) : Acc :=
  (bs.segs.filter fun y => y.row = n).foldl (fun c y =>
    (chunks d.group (mergePairs d g y)).foldl (fun c ps => d.addGroup c ps (some 0, some 0)) c) c

/-- An output of a row-segment descriptor (R153 to R155). -/
def MDesc.outputSeg (d : MDesc) (v b : View) (as bs : Stream) (m n : Nat) : Acc :=
  let last := match as.segs.getLast? with | some g => g.row | none => 0
  if d.sparse = 3 && bs.headBad then ⟨nan32, fNV⟩
  else if as.headBad && last ≤ m then ⟨nan32, fNV⟩
  else (as.segs.filter fun g => g.row = m).foldl (fun c g => if d.sparse = 2 then d.seg2 b n c g else d.seg3 bs n c g)
    (d.init v m n)

/-! ## The whole result -/

/-- The bytes of C's element and the flags of its output (R122). -/
def MDesc.finish (d : MDesc) (c : Acc) : List Byte × AFlags :=
  if d.outf = 0 then (leBytes 4 c.w, c.fl)
  else
    let r := convert d.outf c.w
    (leBytes 2 r.1, c.fl ||| r.2)

/-- C, column by column: offset and bytes of each, with the flags of its outputs. -/
def MDesc.result (d : MDesc) (a b : View) : List (Nat × List Byte × AFlags) :=
  let as := if d.stream then d.aStream a else {}
  let bs := if d.sparse = 3 then d.bStream b else {}
  (List.range d.n).map fun n =>
    let es := (List.range d.m).map fun m =>
      d.finish (if d.stream then d.outputSeg a b as bs m n
        else d.output a b (if d.sparse = 1 then some (d.nmRow a m) else none) m n)
    (d.cOff + n * d.cStr, (es.map (·.1)).flatten, es.foldl (fun f e => f ||| e.2) 0)

/-- Occurrences of the SPARSE_ events in A. -/
def MDesc.aOcc (d : MDesc) (a : View) : Occ :=
  if d.sparse = 1 then (List.range d.m).foldl (fun o m => o.add (d.nmRow a m).occ) {}
  else if d.stream then (d.aStream a).occ else {}

def MDesc.bOcc (d : MDesc) (b : View) : Occ := if d.sparse = 3 then (d.bStream b).occ else {}

/-- Bytes of the first `n` elements of an array, to the end of the last (R91). -/
def spanBytes (b n : Nat) : Nat := if n = 0 then 0 else (elemSpan b (n - 1)).1 + (elemSpan b (n - 1)).2

/-- The runs read at completion: of A in N:M form its slots and the escape values that are read, of a stream what was
read. -/
def MDesc.readRuns (d : MDesc) (a : View) : List (Nat × Nat) :=
  (if d.sparse = 1 then
      ((List.range d.m).map fun m =>
        [(d.aOff + m * d.aStr, d.slotBytes), (d.aOff + m * d.aStr + d.escStart, spanBytes (fmtBits d.afmt) (d.nmRow a m).read)]).flatten
    else if d.stream then [(d.aOff, (d.aStream a).bytes)] else d.aRuns)
  ++ d.asRuns ++ d.assRuns ++ d.metaRuns ++ (if d.acc then d.cRuns else [])

/-! ## The streams of inputs 2 and 3 (R125, R157, R171) -/

/-- Deal rows to two inputs by turns. -/
def byTurns (rows : List Nat) : List Nat × List Nat :=
  let pick := fun k => ((List.range rows.length).filter fun i => i % 2 = k).map fun i => rows.getD i 0
  (pick 0, pick 1)

/-- The rows of the B load: the first half of the columns on input 2, the rest on input 3, each column with its scales;
whole transposed blocks on input 2, a stream by turns (DESIGN CHOICE, log 80). -/
def MDesc.bStreams (d : MDesc) : List Nat × List Nat :=
  let col := fun n => (d.bOff + n * d.bStr, elemBytes d.bfmt d.k)
    :: (if isBlock d.bfmt then [(d.bsOff + n * (d.k / 32), d.k / 32)] else [])
  let h := ceilDiv d.n 2
  if d.sparse = 3 then byTurns (rowsOf d.bOff d.bStr)
  else if d.trb then (runRows d.bRuns, [])
  else (runRows (((List.range h).map col).flatten), runRows (((List.range (d.n - h)).map fun i => col (h + i)).flatten))

/-- The runs of row m of A: its elements, scales, sub-scales and metadata, then C's elements with ACC_INIT. -/
def MDesc.rowRuns (d : MDesc) (v : View) (m : Nat) : List (Nat × Nat) :=
  let at_ := d.aOff + m * d.aStr
  (if d.sparse = 1 then
      [(at_, d.slotBytes), (at_ + d.escStart, spanBytes (fmtBits d.afmt) (d.nmRow v m).read), (d.meta_ + m * d.mr, d.mr)]
    else [(at_, elemBytes d.afmt d.k)])
  ++ (if isBlock d.afmt then [(d.asOff + m * (d.k / 32), d.k / 32)] else [])
  ++ (if d.afmt = 15 then [(d.assOff + 4 * m * (d.k / 32), 4 * (d.k / 32))] else [])
  ++ (if d.acc then (List.range d.n).map fun n => (d.cOff + n * d.cStr + m * d.ce, d.ce) else [])

/-- The rows of the two A streams: the first half of the rows of A on input 2, the rest on input 3; with TRA blocks of eight
rows; a row-segment stream by turns (DESIGN CHOICE for the order of the arrays, log 80). -/
def MDesc.aStreams (d : MDesc) (v : View) : List Nat × List Nat :=
  let part := fun lo n => runRows (((List.range n).map fun i => d.rowRuns v (lo + i)).flatten)
  let block := fun i => (List.range (up8 d.k)).map fun k => (d.aOff + k * d.aStr + i * 8 * d.ae, 8 * d.ae)
  let blocks := fun lo n => runRows (((List.range n).map fun i => block (lo + i)).flatten)
  let h := ceilDiv d.m 2
  let b := ceilDiv d.m 8
  if d.stream then byTurns (rowsOf d.aOff (d.aStream v).bytes)
  else if d.tra then (blocks 0 (ceilDiv b 2), blocks (ceilDiv b 2) (b - ceilDiv b 2))
  else (part 0 h, part h (d.m - h))

/-- Set the streams of inputs 2 and 3. -/
def Pad.setMat (p : Pad) (r : List Nat × List Nat) : Pad := (p.setStream 2 r.1).setStream 3 r.2

/-! ## The phases (R119, R120, R126, R127, R129) -/

/-- The completion word (Table 05.5). -/
def complWord (ecc rej spx : Bool) (code : Nat) (fl : AFlags) : Word :=
  BitVec.ofNat 32 (2 ^ 31 + (if ecc then 2 ^ 30 else 0) + (if rej then 2 ^ 29 else 0) + (if spx then 2 ^ 28 else 0)
    + code * 2 ^ 23 + fl.toNat)

/-- The tile's accounts of reading some runs. -/
def State.readRunsEffects (s : State) (t : Nat) (rs : List (Nat × Nat)) : State :=
  rs.foldl (fun s r => s.readEffects t r.1 r.2) s

/-- The SPARSE_ events of some occurrences. -/
def Occ.events (o : Occ) : List Nat :=
  (if o.overs = 0 then [] else [0x0201]) ++ (if o.range = 0 then [] else [0x0202]) ++ (if o.order = 0 then [] else [0x0203])

/-- Count the sparse occurrences of a descriptor, and raise their events but those it has raised before: each is raised at
most once for a descriptor (R156). -/
def State.sparseEvents (s : State) (t off : Nat) (o : Occ) (raised : List Nat := []) : State :=
  let s := s.modTile t fun x => ((x.count cSpOver o.overs).count cSpRange o.range).count cSpOrder o.order
  (o.events.filter fun e => !raised.contains e).foldl (fun s e => s.tileEvent t e off) s

def setHead (ds : List Desc) (f : Desc → Desc) : List Desc :=
  match ds with
  | [] => []
  | d :: ds => f d :: ds

/-- A rejected descriptor completes with its completion word at `at_`, its token and trap 0x0E (R119, R141). -/
def State.rejectDesc (s : State) (t : Nat) (mat : Bool) (d : Desc) (at_ code : Nat) (ecc : Bool) (tok : Option Token) :
    State :=
  let s := s.padWrite t at_ (leBytes 4 (complWord ecc true false code 0).toNat)
  (s.finishDesc t mat d tok).asyncTrap t 0x0E (BitVec.ofNat 32 d.off) 0 0

def MDesc.token (m : MDesc) (d : Desc) (word : Word) : Option Token :=
  if m.cslotEn then some ⟨m.cslot, d.tag, if m.cval then word else BitVec.ofNat 32 d.off, none⟩ else none

/-- The engine fetches the first queued descriptor (R119, R120); the gate does not hold a fetch (R128). Where a consumer
entry holds the completion word its write waits (R182). With REJCODE 11 the token's fields are those of word 6 as stored,
though that word itself may be the bad one (DESIGN CHOICE, log 79). -/
def execMatrixFetch (t : Nat) (s : State) : Out :=
  onTile t s fun s =>
    let x := s.tile t
    match x.eng.mat with
    | [] => .next s
    | d :: _ =>
      if d.phase ≠ .queued || x.pad.consumerHit (d.off + 28) (d.off + 31) then .next s
      else
        let ws := (List.range 7).map fun i => x.pad.word (d.off + 4 * i)
        let ecc := x.pad.bad d.off 28
        let m := mdesc ws
        let code := if ecc then 11 else m.check d.off
        let s := ((s.readEffects t d.off 28).modTile t (·.modPad (·.setMat (rowsOf d.off 28, [])))).padWrite t (d.off + 28)
          [0, 0, 0, 0]
        if code ≠ 0 then
          .next (s.rejectDesc t true d (d.off + 28) code ecc (m.token d (complWord ecc true false code 0)))
        else .next (s.modTile t (·.modEng fun e => { e with mat := setHead e.mat fun d =>
          { d with phase := .fetched, words := ws } }))

/-- Does a range that is read meet an incomplete write? -/
def Pad.blocked (p : Pad) (rs : List (Nat × Nat)) : Bool :=
  match hull rs with
  | some h => p.writePending h.1 h.2
  | none => false

/-- The issue check and the entries of C and, with CONSB, of B with its scales (R126). -/
def execMatrixIssue (t : Nat) (s : State) : Out :=
  onTile t s fun s =>
    let x := s.tile t
    match x.eng.mat with
    | [] => .next s
    | d :: _ =>
      let m := mdesc d.words
      let p := x.pad.issueView s.now
      if d.phase ≠ .fetched || x.eng.gate = 0 || p.blocked m.aRuns || p.blocked m.asRuns || p.blocked m.assRuns
          || p.blocked m.metaRuns || p.blocked m.bRuns || p.blocked m.bsRuns || (m.acc && p.blocked m.cRuns)
          || p.freeEntries < (if m.consB then 2 else 1) then .next s
      else
        let c := (hull m.cRuns).getD (m.cOff, m.cOff)
        let b := (hull (m.bRuns ++ m.bsRuns)).getD (m.bOff, m.bOff)
        let pc := x.pad.enterKey s.now ⟨false, 0, c.1, c.2, 0⟩
        let pb := if m.consB then pc.1.enterKey s.now ⟨true, 0, b.1, b.2, 0⟩ else (pc.1, [])
        .next (s.modTile t fun x => (x.modPad fun _ => pb.1.setMat m.bStreams).modEng fun e => { e with mat := setHead e.mat fun d =>
          { d with phase := .issued, entries := pc.2, cons := pb.2.map fun k => (k, 0) } })

/-- The last byte of B enters the latch: B's consumer entry is released, and its faults are counted (R126, R154, R156). -/
def execMatrixBLatched (t : Nat) (s : State) : Out :=
  onTile t s fun s =>
    let x := s.tile t
    match x.eng.mat with
    | [] => .next s
    | d :: _ =>
      if d.phase ≠ .issued || x.eng.gate = 0 then .next s
      else
        let m := mdesc d.words
        let rs := m.bRuns ++ m.bsRuns
        let as := (rs.map fun r => (List.range r.2).map (r.1 + ·)).flatten
        let p := x.pad
        let ecc := rs.any fun r => p.bad r.1 r.2
        let occ := m.bOcc (padView p)
        let s := (s.readRunsEffects t rs).modTile t fun x =>
          (x.modPad fun p => (p.dropAll s.now (d.cons.map (·.1))).setMat (m.aStreams (padView p))).modEng fun e => { e with
            latch := as.foldl (fun l a => mWrite 0 l a (p.read a)) []
            latchBad := as.filter p.badAt
            mat := setHead e.mat fun d => { d with phase := .latched, cons := [], ecc := d.ecc || ecc, raised := occ.events } }
        .next ((s.sparseEvents t d.off occ).freeWrites t)

def latchView (e : Eng) : View := ⟨fun a => (mRead 0 e.latch a).toNat, fun a => e.latchBad.contains a⟩

/-- The last write of C lands: entries released, completion word written, token presented (R122, R129). A consumer entry of
another descriptor over C or over the completion word holds it (R182). -/
def execMatrixComplete (t : Nat) (s : State) : Out :=
  onTile t s fun s =>
    let x := s.tile t
    match x.eng.mat with
    | [] => .next s
    | d :: _ =>
      let m := mdesc d.words
      let c := (hull m.cRuns).getD (m.cOff, m.cOff)
      if d.phase ≠ .latched || x.eng.gate = 0 || x.pad.consumerHit c.1 c.2
          || x.pad.consumerHit (d.off + 28) (d.off + 31) then .next s
      else
        let a := padView x.pad
        let b := latchView x.eng
        let rs := m.readRuns a
        let ecc := d.ecc || rs.any fun r => x.pad.bad r.1 r.2
        let cols := m.result a b
        let occ := m.aOcc a
        let fl := cols.foldl (fun f k => f ||| k.2.2) (0 : AFlags)
        let w := complWord ecc false (!d.raised.isEmpty || occ.any) 0 fl
        let s := (s.readRunsEffects t rs).sparseEvents t d.off occ d.raised
        let s := cols.foldl (fun s k => s.padWrite t k.1 k.2.1) s
        let s := s.modTile t (·.modPad fun p => (p.dropAll s.now d.entries).setMat ([], []))
        let s := s.padWrite t (d.off + 28) (leBytes 4 w.toNat)
        .next (s.finishDesc t true d (m.token d w))

/-! ## The issue gate (R128) -/

/-- The gate value that the Kiln last gave a span (R310). -/
def State.gateOf (s : State) (n : Nat) : Nat := tGet 64 s.kiln.gates n

/-- The gate value that a tile is sent: 0 at a stop, else its span's, and 64 to a tile of no span (R128, R310, R317). -/
def State.gateFor (s : State) (t : Nat) : Nat :=
  if s.kiln.stopAt.isSome then 0 else match s.spanOf t with
    | some n => s.gateOf n
    | none => 64

/-- A gate value arrives; it waits for the next window boundary. -/
def execGateValueCommand (t l : Nat) (s : State) : Out :=
  onTile t s fun s =>
    if l ≠ s.gateFor t then .next s else .next (s.modTile t (·.modEng fun e => { e with gateNew := some l }))

/-- A window boundary: every 64 cycles from the field fabric reset, the newest value takes effect. -/
def execGateWindow (t : Nat) (s : State) : Out :=
  onTile t s fun s =>
    if s.timer t % 64 = 0 then
      .next (s.modTile t (·.modEng fun e => match e.gateNew with
        | some l => { e with gate := l, gateNew := none }
        | none => e))
    else .next s

end Sys2Proof.Machine
end

