-- ==== Sys2Proof/Machine/HostFmt.lean ====
section
/-! DEFINITION. The content sections of an image that the firmware checks and loads: power policy, host windows and rings,
peer tables (R303, R304, R345, R366). -/

namespace Sys2Proof.Machine

/-- Are `n` bytes of the image zero? -/
def imgZero (m : Mem) (a n : Nat) : Bool := allZero (imgBytes m a n)

/-- No element twice. -/
def noDup : List Nat → Bool
  | [] => true
  | a :: l => !l.contains a && noDup l

/-! ## Host windows and rings (R345) -/

/-- A window entry: WIN and the window (Table 16.4). -/
def winEntry (m : Mem) (a : Nat) : Nat × Window :=
  let b := imgByte m
  let f := b (a + 18)
  (b (a + 16),
   { base := imgLe m a 8, len := imgLe m (a + 8) 8, port := b (a + 17), rd := bitsN f 0 1 = 1, wr := bitsN f 1 1 = 1,
     atom := bitsN f 2 1 = 1, noSnoop := bitsN f 3 1 = 1, ring := bitsN f 4 1 = 1,
     ide := if b (a + 19) = 0xFF then none else some (b (a + 19)) })

/-- A ring entry (Table 16.5). -/
def ringEntry (m : Mem) (a : Nat) : Ring :=
  let b := imgByte m
  { base := imgLe m a 8, ctl := imgLe m (a + 8) 8, kind := b (a + 16), port := b (a + 17), log2 := b (a + 18),
    esz := b (a + 19), pollUs := imgLe m (a + 20) 2, queue := b (a + 22), win := b (a + 23),
    target := imgLe m (a + 24) 4, msix := if b (a + 28) = 0xFF then none else some (b (a + 28)),
    modUs := imgLe m (a + 29) 2, waitMs := b (a + 31) }

def winCount (m : Mem) (o : Nat) : Nat := min 32 (imgByte m o)
def ringCount (m : Mem) (o : Nat) : Nat := min 256 (imgLe m (o + 2) 2)

def winEntries (m : Mem) : List (Nat × Window) :=
  match sect m 5 with
  | some x => (List.range (winCount m x.off)).map fun i => winEntry m (x.off + 64 + 32 * i)
  | none => []

def ringEntries (m : Mem) : List Ring :=
  match sect m 5 with
  | some x => (List.range (ringCount m x.off)).map fun i => ringEntry m (x.off + 64 + 32 * winCount m x.off + 32 * i)
  | none => []

/-- The fields of a window entry are in range, its reserved bits 0. -/
def winOk (m : Mem) (a : Nat) : Bool :=
  let e := winEntry m a
  let w := e.2
  let sized := if w.ring then w.base = 0 && w.len = 0 && !w.rd && !w.wr && !w.atom
    else w.base % 4096 = 0 && 4096 ≤ w.len && w.len ≤ 2 ^ 40 && w.len % 4096 = 0
  e.1 < 32 && w.port < 4 && imgByte m (a + 18) < 32 && sized && imgZero m (a + 20) 12
    && (match w.ide with | some j => j < 4 | none => true)

/-- The fields of a ring entry are in range. Fields that its KIND does not use are not judged. -/
def ringOk (ws : List (Nat × Window)) (r : Ring) : Bool :=
  r.base % 4096 = 0 && r.ctl % 8 = 0 && r.kind < 3 && r.port < 4 && 1 ≤ r.log2 && r.log2 ≤ 15
    && 1 ≤ r.esz && r.esz ≤ 8 && r.pollUs ≤ 1000 && 1 ≤ r.waitMs && r.waitMs ≤ 40
    && (match r.kind with
      | 0 => r.queue ≤ 6 && r.target < Config.nTiles
      | 1 => r.esz = 1
      | _ => r.pollUs = 0 && r.modUs ≤ 1000
          && (match r.msix with | some v => 1 ≤ v && v ≤ 63 | none => true)
          && ws.any fun e => e.1 = r.win && e.2.ring && e.2.port = r.port)

/-- The host section passes R345. -/
def hostSectOk (m : Mem) : Bool :=
  match sect m 5 with
  | none => true
  | some x =>
    let nw := imgByte m x.off
    let nr := imgLe m (x.off + 2) 2
    let ws := winEntries m
    let rs := ringEntries m
    nw ≤ 32 && nr ≤ 256 && 64 + 32 * nw + 32 * nr ≤ x.len && imgByte m (x.off + 1) = 0 && imgZero m (x.off + 4) 60
      && ((List.range nw).all fun i => winOk m (x.off + 64 + 32 * i))
      && rs.all (ringOk ws) && noDup (ws.map (·.1))
      && noDup ((rs.filter fun r => r.kind = 2).map (·.win))

/-! ## Power policy (R303, R304) -/

/-- A number of the power-policy header: `n` bytes at byte `a` (Table 14.3). -/
def policy (m : Mem) (a n : Nat) : Nat :=
  match sect m 4 with
  | some x => imgLe m (x.off + a) n
  | none => 0

def polCap (m : Mem) : Nat := policy m 0 2
def polMargin (m : Mem) : Nat := policy m 2 2
def polFtop (m : Mem) : Nat := policy m 4 1
def polLmin (m : Mem) : Nat := policy m 5 1
def polStretch (m : Mem) : Nat := policy m 8 2
def polTlimit (m : Mem) : Nat := policy m 10 1
def polPhaseBase (m : Mem) : Nat := policy m 12 4
def polW0 (m : Mem) : Nat := policy m 16 2
def polWdef (m : Mem) : Nat := policy m 18 2
def polNseed (m : Mem) : Nat := min 64 (policy m 20 2)

/-- The seed entries: PHASE_ID, the byte that must be 0, and W_UW. -/
def seeds (m : Mem) : List (Nat × Nat × Nat) :=
  (List.range (polNseed m)).map fun i => (policy m (64 + 4 * i) 1, policy m (65 + 4 * i) 1, policy m (66 + 4 * i) 2)

def seedOf (m : Mem) (p : Nat) : Nat := ((seeds m).find? (·.1 = p)).elim (polWdef m) (·.2.2)

/-- Is the range of a section field given by its bounds? -/
def within (lo v hi : Nat) : Bool := lo ≤ v && v ≤ hi

/-- The power-policy section passes R304. -/
def policyOk (m : Mem) : Bool :=
  match sect m 4 with
  | none => true
  | some x =>
    let n := policy m 20 2
    let bm := policy m 22 2
    within 4000 (polCap m) 24000 && polMargin m ≤ 2000 && polFtop m ≤ 7 && within 1 (polLmin m) 64
      && within 600 (policy m 6 2) 720 && within 16 (polStretch m) 256 && within 60 (polTlimit m) 105
      && policy m 11 1 = 0 && polPhaseBase m % 4 = 0 && within 500 (polW0 m) 20000 && within 1000 (polWdef m) 40000
      && n ≤ 64 && 64 + 4 * n ≤ x.len && imgZero m (x.off + 24) 40
      && (seeds m).all (fun e => e.1 ≠ 0 && e.2.1 = 0) && noDup ((seeds m).map (·.1))
      && (ranges m).any (fun r => r.2.2.1 = 2 && r.1 ≤ polPhaseBase m && polPhaseBase m + 16383 ≤ r.2.1)
      && (bm = 0 || (64 + 4 * n ≤ bm && bm + 4096 ≤ x.len
        && (List.range 4096).all fun j => 128 ≤ imgByte m (x.off + bm + j)))

/-! ## Peer tables (R366) -/

/-- A peer entry: ENG_ID and its pairs (LPORT, RPORT). -/
def peerEntry (m : Mem) (a : Nat) : Nat × Peer :=
  (imgByte m a, ⟨(List.range (min 4 (imgByte m (a + 1)))).map fun i => (imgByte m (a + 4 + 2 * i), imgByte m (a + 5 + 2 * i))⟩)

def peerEntries (m : Mem) : List (Nat × Peer) :=
  match sect m 6 with
  | some x => (List.range (min 255 (imgLe m (x.off + 3) 2))).map fun i => peerEntry m (x.off + 64 + 16 * i)
  | none => []

def peerCabled (m : Mem) : BitVec 32 :=
  match sect m 6 with
  | some x => BitVec.ofNat 32 (imgLe m (x.off + 6) 4)
  | none => 0

/-- The bytes of a peer entry that its NPAIR leaves unused are 0. -/
def peerZeros (m : Mem) (a : Nat) : Bool :=
  let n := imgByte m (a + 1)
  1 ≤ n && n ≤ 4 && imgZero m (a + 2) 2 && imgZero m (a + 4 + 2 * n) (12 - 2 * n)

/-- The peer-table section passes R366, on an engine with the ID given, if its slot is valid. -/
def peersOk (m : Mem) (eng : Nat) (slotValid : Bool) : Bool :=
  match sect m 6 with
  | none => true
  | some x =>
    let n := imgLe m (x.off + 3) 2
    let es := peerEntries m
    let self := imgByte m x.off
    let known := fun e => e = self || es.any (·.1 = e)
    slotValid && self = eng && n ≤ 255 && 64 + 16 * n ≤ x.len && imgByte m (x.off + 5) = 0 && imgZero m (x.off + 10) 54
      && ((List.range n).all fun i => peerZeros m (x.off + 64 + 16 * i))
      && noDup (self :: es.map (·.1))
      && es.all (fun e => e.2.pairs.all fun p => p.1 < 32 && p.2 < 32 && (peerCabled m).getLsbD p.1)
      && known (imgByte m (x.off + 1)) && known (imgByte m (x.off + 2))

/-! ## The recovery registers (Table 13.6) -/

def RcvPhase.code : RcvPhase → Nat
  | .idle => 0 | .checking => 1 | .erasing => 2 | .programming => 3 | .readback => 4 | .done => 5 | .failed => 6

/-- PROGRESS: the elapsed part of the phase in 4,096ths; when no phase is at work, what was reached (log 65). -/
def Rcv.elapsed (r : Rcv) (now : Nat) : Nat :=
  if r.phase = .idle || r.phase = .done || r.phase = .failed then r.progress
  else min 4095 ((now - r.since) * 4096 / max 1 (Config.phaseTime r.phase.code r.len))

/-- KST_RCV_STATUS. -/
def Rcv.status (r : Rcv) (now : Nat) : Nat := r.elapsed now * 2 ^ 16 + r.cause * 2 ^ 8 + r.phase.code

end Sys2Proof.Machine
end

