-- ==== Sys2Proof/Machine/ParityFmt.lean ====
section
/-! DEFINITION. The parity-group section of an image (R394, R395), and the arithmetic of the code it sets up (R399, R403). -/

namespace Sys2Proof.Machine

/-! ## The section (Tables 19.1 to 19.3) -/

/-- A number of the section: `n` bytes at byte `a`, 0 where the section is absent. -/
def parity (m : Mem) (a n : Nat) : Nat :=
  match sect m 7 with
  | some x => imgLe m (x.off + a) n
  | none => 0

/-- The snapshot interval in s; 0 means 240. -/
def parInterval (m : Mem) : Nat := if parity m 0 2 = 0 then 240 else parity m 0 2
def parGroupCount (m : Mem) : Nat := min 3 (parity m 2 1)
/-- Bytes of a slot. -/
def parSlot (m : Mem) : Nat := parity m 4 4 * 2 ^ 20
/-- The shard windows in use. -/
def parWins (m : Mem) : List Nat := ((List.range 4).map fun i => parity m (8 + i) 1).filter (· ≠ 0xFF)

/-- A span entry: SPAN_ID, LO, HI. -/
def parSpans (m : Mem) : List (Nat × Nat × Nat) :=
  (List.range (parity m 3 1)).map fun i =>
    let a := 64 + 16 * parGroupCount m + 8 * i
    (parity m a 2, parity m (a + 2) 2, parity m (a + 4) 2)

/-- A group entry (Table 19.2). -/
def parGroup (m : Mem) (i : Nat) : Group :=
  let a := 64 + 16 * i
  { id := parity m a 1, index := parity m (a + 1) 1, members := (List.range 10).map fun j => parity m (a + 2 + j) 1,
    pwin := parity m (a + 12) 1, rebuild := parity m (a + 13) 1 = 1, rsnap := parity m (a + 14) 2 }

def parGroups (m : Mem) : List Group := (List.range (parGroupCount m)).map (parGroup m)

/-! ## What the firmware checks (R395) -/

/-- A window serves as shard or parity window: RD and WR, not a ring window, two slots long. -/
def parWinOk (m : Mem) (w : Nat) : Bool :=
  (winEntries m).any fun e => e.1 = w && e.2.rd && e.2.wr && !e.2.ring && 2 * parSlot m ≤ e.2.len

/-- SHWIN0 is in use, and each later one is 0xFF once one is. -/
def shwinsOk : List Nat → Bool
  | [] => true
  | w :: l => if w = 0xFF then l.all (· = 0xFF) else w ≤ 31 && shwinsOk l

def parHeaderOk (m : Mem) (len : Nat) : Bool :=
  let iv := parity m 0 2
  let ws := (List.range 4).map fun i => parity m (8 + i) 1
  (iv = 0 || within 60 iv 1800) && parity m 2 1 ≤ 3 && within 1 (parity m 3 1) 255 && within 1 (parity m 4 4) 1048576
    && 64 + 16 * parity m 2 1 + 8 * parity m 3 1 ≤ len && ws.head? ≠ some 0xFF && shwinsOk ws
    && (List.range 52).all (fun j => parity m (12 + j) 1 = 0) && (parWins m).all (parWinOk m)

/-- A group entry on engine `self`. -/
def parGroupOk (m : Mem) (self i : Nat) : Bool :=
  let g := parGroup m i
  let flags := parity m (64 + 16 * i + 13) 1
  g.index ≤ 9 && flags ≤ 1 && (flags = 1 || g.rsnap = 0)
    && (if 8 ≤ g.index then g.pwin ≤ 31 && parWinOk m g.pwin else g.pwin = 0xFF)
    && g.members[g.index]? = some self && noDup g.members
    && g.members.all fun e => e = self || (peerEntries m).any (·.1 = e)

/-- A span entry: a span of the layout, and a range of whole rows in banks that the span keeps on. -/
def parSpanOk (m : Mem) (e : Nat × Nat × Nat) : Bool :=
  let lo := e.2.1
  let hi := e.2.2
  (spanRecs m).any (·.1 = e.1) && hi ≤ 0xF6FF && lo ≤ hi && lo % 8 = 0 && (hi + 1) % 8 = 0
    && (List.range 8).all fun b => (bankMask m e.1).getLsbD b || !touches b lo (hi + 1 - lo)

/-- The parity-group section passes R395. -/
def parityOk (m : Mem) (self : Nat) : Bool :=
  match sect m 7 with
  | none => true
  | some x =>
    let ss := parSpans m
    parHeaderOk m x.len && (List.range (parGroupCount m)).all (parGroupOk m self)
      && ((parGroups m).filter (·.index ≤ 7)).length ≤ 1 && ss.all (parSpanOk m) && noDup (ss.map (·.1))
      && (List.range ss.length).all fun i => parity m (64 + 16 * parGroupCount m + 8 * i + 6) 2 = 0

/-! ## GF(2^8) with x^8 + x^4 + x^3 + x^2 + 1 (R399) -/

/-- Multiply by x. -/
def gfDouble (a : Byte) : Byte := if a.getLsbD 7 then (a <<< 1) ^^^ 0x1D else a <<< 1

/-- Product, over the low `n` bits of `b`. -/
def gfMulBits : Nat → Byte → Byte → Byte
  | 0, _, _ => 0
  | n + 1, a, b => (if b.getLsbD 0 then a else 0) ^^^ gfMulBits n (gfDouble a) (b >>> 1)

def gfMul (a b : Byte) : Byte := gfMulBits 8 a b

/-- The multiplicative inverse; 0 for 0, which has none. -/
def gfInv (a : Byte) : Byte := ((List.range 256).map (BitVec.ofNat 8)).find? (fun b => gfMul a b = 1) |>.getD 0

/-- Coefficients of position j in the two parity equations P0 = Σ D_i and P1 = Σ 2^i D_i. -/
def coeff0 (j : Nat) : Byte := if j ≤ 8 then 1 else 0
def coeff1 (j : Nat) : Byte := if j ≤ 7 then BitVec.ofNat 8 (2 ^ j) else if j = 9 then 1 else 0

/-- The coefficient c_j by which shard `j` enters lost shard `l`, with position `x` left out: the combination of the two
equations that does not contain shard `x`, divided by its coefficient of shard `l` (R403). -/
def rebuildCoeff (l x j : Nat) : Byte :=
  let h := fun j => gfMul (coeff1 x) (coeff0 j) ^^^ gfMul (coeff0 x) (coeff1 j)
  gfMul (h j) (gfInv (h l))

/-! ## Shards, stripes and records (R397, R398, R400) -/

def stripeLen : Nat := 65536
def pieceLen : Nat := 256
/-- Pieces in a stripe. -/
def stripePieces : Nat := 256
def stripeCount (len : Nat) : Nat := ceilDiv len stripeLen

/-- The last stripe is padded with zeros. -/
def padStripes (bs : List Byte) : List Byte := bs ++ List.replicate (stripeCount bs.length * stripeLen - bs.length) 0

/-- Window and offset of stripe k of a slot: over W windows (R397), one of them for parity (R400). -/
def stripeAt (m : Mem) (wins : List Nat) (snap k : Nat) : Nat × Nat :=
  (wins.getD (k % wins.length) 0, snap % 2 * parSlot m + 4096 + k / wins.length * stripeLen)

/-- Does a shard of `len` bytes fit the slots of the windows? -/
def shardFits (m : Mem) (wins : List Nat) (len : Nat) : Bool :=
  4096 + ceilDiv (stripeCount len) wins.length * stripeLen ≤ parSlot m

/-- A commit record (Table 19.4). -/
def commitRecord (magic snap eng index gid gen len gtime : Nat) : List Byte :=
  leBytes 4 magic ++ leBytes 4 snap ++ leBytes 1 eng ++ leBytes 1 index ++ leBytes 1 gid ++ leBytes 1 0 ++ leBytes 4 gen
    ++ leBytes 8 len ++ leBytes 8 gtime ++ List.replicate 32 0

def commitMagic : Nat := 0x4B435053

end Sys2Proof.Machine
end

