-- ==== Sys2Proof/Machine/EventLog.lean ====
section
/-! DEFINITION. The event log: records written and merged, and suspected deadlocks (R238, R384, R423 to R425). -/

namespace Sys2Proof.Machine

/-- The severity of an event code (Table 21.4): 0 INFO, 1 NOTICE, 2 ERROR, 3 FATAL. -/
def sevOf (code : Nat) : Nat :=
  if [0x0603, 0x0703].contains code then 3
  else if [0x0302, 0x0406, 0x0502, 0x0503, 0x0504, 0x0604, 0x0702, 0x0801, 0x0803, 0x0804, 0x0901, 0x0A01, 0x0A02].contains
      code then 2
  else if [0x0103, 0x0201, 0x0202, 0x0203, 0x0301, 0x0304, 0x0501, 0x0601, 0x0602, 0x0802].contains code then 0
  else 1

/-- Write a new record; the log keeps the 2,048 newest (R424). -/
def State.logRecord (s : State) (e : EvRec) : State :=
  s.modStatus fun x =>
    let l := x.log ++ [{ e with seqNo := x.next % 2 ^ 32 }]
    { x with log := l.drop (l.length - 2048), next := (x.next + 1) % 2 ^ 32 }

/-- The Keystone's record of a reset or a stop: KIND 1 (R384). -/
def State.logKeystone (s : State) (sev arg : Nat) : State :=
  s.logRecord { code := 0, sev := sev, src := 2, kind := 1, gtime := s.clk.master, tile := none, field := none,
                span := none, count := 1, arg := arg, seqNo := 0 }

/-- Does the report merge into the record (R423)? -/
def EvRec.takes (r : EvRec) (e : EventReport) (now : Nat) : Bool :=
  r.kind = 0 && r.code = e.code && r.src = e.src && r.tile = e.tile && r.span = e.span && now ≤ r.gtime + 1000000

/-- Merge into the newest of the 16 most recent records that takes the report, if one does. -/
def mergeReport (e : EventReport) (now : Nat) (l : List EvRec) : Option (List EvRec) :=
  let k := l.length - 16
  match ((l.drop k).reverse.findIdx? fun r => r.takes e now) with
  | none => none
  | some i =>
    let j := l.length - 1 - i
    l[j]?.map fun r => l.set j { r with count := min 0xFFFFFFFF (r.count + e.count) }

/-- The Keystone takes a report into the log (R423, R424). -/
def State.logReport (s : State) (e : EventReport) : State :=
  match mergeReport e s.clk.master s.status.log with
  | some l => s.modStatus fun x => { x with log := l }
  | none => s.logRecord { code := e.code, sev := sevOf e.code, src := e.src, kind := 0, gtime := s.clk.master, tile := e.tile,
                          field := e.field, span := e.span, count := min 0xFFFFFFFF e.count, arg := e.arg, seqNo := 0 }

/-- A QFULL_TIMEOUT from `p` to `q` is kept; one from `q` to `p` within 2 ms makes the pair suspect, once in 2 ms (R238). -/
def State.noteQfull (s : State) (p q : Nat) : State :=
  let now := s.clk.master
  let near := fun (l : List (Nat × Nat × Nat)) (a b : Nat) => l.any fun e => e.1 = a && e.2.1 = b && now ≤ e.2.2 + 2000000
  let hit := near s.status.qfull q p
  let told := near s.status.deadlocks p q || near s.status.deadlocks q p
  let s := s.modStatus fun x =>
    let l := x.qfull ++ [(p, q, now)]
    { x with qfull := l.drop (l.length - 64),
             deadlocks := if hit && !told then
               (x.deadlocks.filter fun e => now ≤ e.2.2 + 2000000) ++ [(p, q, now)] else x.deadlocks }
  if hit && !told then
    s.logReport { code := 0x0406, src := 2, tile := some p, field := some (fieldOf p), arg := q }
  else s

/-- A report reaches the active Keystone: the first of those on their way (R423). -/
def execEventReport (e : EventReport) (s : State) : Out :=
  match s.status.reports with
  | [] => .next s
  | r :: rs =>
    if r ≠ e || s.mgmt.ksReset.isSome then .next s
    else
      let s := (s.modStatus fun x => { x with reports := rs }).logReport e
      match e.tile with
      | some t => .next (if e.code = 0x0401 then s.noteQfull t e.arg else s)
      | none => .next s

end Sys2Proof.Machine
end

