-- ==== Sys2Proof/Machine/QueueArrive.lean ====
section
/-! DEFINITION. SENDs, credits and contributions at their receiver, credits and answers at their sender (R191, R218,
R219, R224, R230 to R236, R248). -/

namespace Sys2Proof.Machine

/-! ## At the receiver -/

def execSendArrive (t : Nat) (p : Packet) (s : State) : Out := tileArrive t p .send s
def execPutReduceArrive (t : Nat) (p : Packet) (s : State) : Out := tileArrive t p .putReduce s

/-- Credit requests waiting in all queues of a tile. -/
def Tile.waitingReqs (x : Tile) : Nat := ((List.range 8).map fun i => (x.queue i).waits.length).sum

/-- Take slots back from what a sender has been granted. -/
def Queue.giveUp (q : Queue) (t e k : Nat) (m : BitVec 8) : Queue :=
  let gs := q.grants.map fun g =>
    if g.srcTile = t && g.srcEng = e && g.srcKind = k then { g with slots := g.slots &&& ~~~m } else g
  { q with grants := gs.filter fun g => g.slots ≠ 0 }

/-- A CREDIT_REQ at an open queue: the slots it gives back are free, it waits its turn or is answered RETRY (R232). -/
def State.creditReq (s : State) (t : Nat) (p : Packet) : State :=
  let i := p.queue
  let q := (s.tile t).queue i
  let q := if p.gen = q.gen then q.giveUp p.srcTile p.srcEng p.srcKind p.slots else q
  let s := (s.modTile t (·.setQueue i q)).serveQueue t i
  let x := s.tile t
  let q := x.queue i
  let direct := q.waits.isEmpty && !(runs (~~~q.used) p.run).isEmpty
  if 16 ≤ x.waitingReqs && !direct then s.answer t p .retry
  else
    let w : CreditWait := ⟨p.srcTile, p.srcEng, p.srcKind, p.span, p.run, p.opid, p.serial⟩
    (s.setTile t (x.setQueue i { q with waits := q.waits ++ [w] })).serveQueue t i

/-- A CREDIT_REQ reaches its tile (R215, R232, R233, R248). -/
def execCreditReqArrive (t : Nat) (p : Packet) (s : State) : Out :=
  onTile t s fun s =>
    if p.op ≠ .creditReq then .next s
    else match s.take t p with
      | none => .next s
      | some s =>
        if s.isHeld t then .next (s.refuse t p .spanReset)
        else
          let q := (s.tile t).queue p.queue
          if p.run = 0 || 8 < p.run || p.rsv ≠ 0 then .next (s.answer t p .addressFault)
          else if !q.isOpen then .next (s.refuse t p .readerGone)
          else if q.comb then .next (s.answer t p .addressFault)
          else .next (s.creditReq t p)

/-! ## At the sender -/

/-- The credit entry of the channel to queue `i` of a tile. -/
def Credit.channel (c : Credit) (eng tile i : Nat) : Bool := c.eng = eng && c.tile = tile && c.queue = i

/-- Slots of generation `gen` enter an entry; slots of another generation that it held are worthless (R233). -/
def Credit.add (c : Credit) (gen : Nat) (m : BitVec 8) : Credit :=
  if c.gen = gen then { c with slots := c.slots ||| m } else { c with gen := gen, slots := m }

def Ni.addCredit (n : Ni) (eng tile i gen : Nat) (m : BitVec 8) (f : Credit → Credit) : Ni :=
  { n with credits := n.credits.map fun c => if c.channel eng tile i then f (c.add gen m) else c }

/-- A waiting SEND whose entry now holds a run of its slots may leave (R232). -/
def Ni.wake (n : Ni) : Ni :=
  { n with ops := n.ops.map fun o =>
      let waits := match o.st with | .requested | .retry _ => true | _ => false
      if o.kind = .send && waits && n.credits.any (fun c => c.isFor o && !(runs c.slots (slotsFor o.len)).isEmpty) then
        { o with st := .waiting }
      else o }

/-- Slots that no entry can hold go back to the receiver (R232, R236). -/
def State.returnSlots (s : State) (t : Nat) (p : Packet) : State :=
  s.giveBack t ⟨p.srcEng, p.srcTile, p.queue, p.gen, p.slots, 0⟩

/-- A CREDIT_RET: slots a sender gives back to this tile's queue, or slots a receiver returns to this sender (R231 to
R233, R248). -/
def execCreditRetArrive (t : Nat) (p : Packet) (s : State) : Out :=
  onTile t s fun s =>
    if p.op ≠ .creditRet then .next s
    else match s.take t p with
      | none => .next s
      | some s =>
        if s.isHeld t then .next s
        else if p.toSender then
          if (s.tile t).ni.credits.any (·.channel p.srcEng p.srcTile p.queue) then
            .next ((s.modTile t (·.modNi fun n => (n.addCredit p.srcEng p.srcTile p.queue p.gen p.slots id).wake)).pump t)
          else .next (s.returnSlots t p)
        else
          let q := (s.tile t).queue p.queue
          if !q.isOpen || q.comb || q.gen ≠ p.gen then .next s
          else .next ((s.modTile t (·.setQueue p.queue (q.giveUp p.srcTile p.srcEng p.srcKind p.slots))).serveQueue t
            p.queue)

/-- The SEND that a grant is for: it waits, or has left with slots returned meanwhile. -/
def IssueOp.grantee (o : IssueOp) (p : Packet) : Bool :=
  o.kind = .send && o.id = p.opid && o.serial = p.serial && o.dest = .tile p.srcEng p.srcTile && sendQueue o.addr = p.queue
    && (match o.st with | .requested | .retry _ | .sent _ => true | _ => false)

/-- A CREDIT_GRANT: the waiting SEND leaves; a grant for a cancelled SEND, or at a tile held in reset, is given back
(R232, R236, R248). -/
def execCreditGrantArrive (t : Nat) (p : Packet) (s : State) : Out :=
  onTile t s fun s =>
    if p.op ≠ .creditGrant then .next s
    else match s.take t p with
      | none => .next s
      | some s =>
        if s.isHeld t || !((s.tile t).ni.ops.any (·.grantee p)) then .next (s.returnSlots t p)
        else
          let now := s.now
          .next ((s.modTile t (·.modNi fun n =>
            (n.addCredit p.srcEng p.srcTile p.queue p.gen p.slots fun c => { c with used := now }).wake)).pump t)

/-- 64 cycles after RETRY the credit request is sent again (R218). -/
def execCreditRetry (t opid : Nat) (s : State) : Out :=
  onTile t s fun s =>
    let ops := (s.tile t).ni.ops
    match ops.findIdx? fun o => o.id = opid with
    | none => .next s
    | some k => match ops[k]? with
      | none => .next s
      | some o => match o.st, s.exit t o.dest, (s.tile t).ni.credits.find? (·.isFor o) with
        | .retry a, .ok (u, out), some c =>
          if s.now < a + 64 then .next s
          else
            let p := s.requestOf t o c u out
            let s := s.modTile t (·.modNi fun n => n.modCredit o fun c => { c with slots := 0 })
            .next ((s.setOp t k { o with st := .requested }).launch t p)
        | .retry a, .error e, _ => if s.now < a + 64 then .next s else .next ((s.answerOp t k o e).pump t)
        | _, _, _ => .next s

/-- A credit entry that no SEND has used for 4,096 cycles gives back its slots (R232). -/
def execCreditIdleReturn (t k : Nat) (s : State) : Out :=
  onTile t s fun s =>
    let n := (s.tile t).ni
    match n.credits[k]? with
    | some c =>
      if c.slots ≠ 0 && c.used + 4096 ≤ s.now then
        let keep := n.sendWaits c
        let cs := if keep then n.credits.set k { c with slots := 0 } else n.credits.eraseIdx k
        .next (((s.modTile t (·.modNi fun n => { n with credits := cs })).giveBack t c).pump t)
      else .next s
    | none => .next s

/-! ## Answers (R218, R219, R224, R191) -/

/-- The operation in flight that an answer is for: a late answer to an operation that has timed out is for none, though its
OPID is in use again (R219). -/
def answered (p : Packet) (ops : List IssueOp) : Option Nat :=
  ops.findIdx? fun o => o.id = p.opid && o.serial = p.serial && o.inFlight

/-- Data an answer brings: the bytes of a GET, the old value of a 64-bit ATOMIC. -/
def landingBytes (o : IssueOp) (p : Packet) : List Byte :=
  if p.op = .getResp then p.data else if o.is64 && p.code = .ok then leBytes 8 p.old.toNat else []

/-- An answer of a packet kind that the operation is not waiting for is no answer to it. -/
def answerFits (o : IssueOp) (p : Packet) : Bool :=
  match o.st with
  | .sent _ => !(p.op = .getResp && o.kind ≠ .get) && p.code ≠ .retry
  | .requested => p.op = .resp
  | _ => false

/-- The answer to operation `k` of the buffer: landing data is written unless its bank is off, then it is answered. -/
def State.takeAnswer (s : State) (t k : Nat) (o : IssueOp) (p : Packet) : State :=
  if p.code = .retry then s.setOp t k { o with st := .retry s.now }
  else
    let bs := landingBytes o p
    if o.pull && spaceOf o.addr = 1 then
      let a := addrOff o.addr
      (s.landSeg t (if a < 0x2000 then 2 else 1) o.loc bs).answerOp t k o p.code
    else
    let off := (s.tile t).pad.offRows o.loc bs.length
    if bs ≠ [] && off ≠ 0 then (s.countEvent t cDestOff 0x0303 o.loc off).answerOp t k o .destOff
    else
      let s := if bs = [] then s else s.padWrite t o.loc bs
      s.answerOp t k { o with old := p.old } p.code

/-- A RESP or GET_RESP reaches its sender; what answers nothing, comes to a tile held in reset, or is of a kind that passes
only between Viaduct Piers is discarded and counted (R217, R219, R248). -/
def execAnswerArrive (t : Nat) (p : Packet) (s : State) : Out :=
  onTile t s fun s =>
    if !(p.op = .resp || p.op = .getResp || p.op.pierOnly) then .next s
    else match s.take t p with
      | none => .next s
      | some s =>
        let ops := (s.tile t).ni.ops
        let lost := s.modTile t (·.count cAnsDisc 1)
        if s.isHeld t || p.op.pierOnly then .next lost
        else match answered p ops with
          | none => .next lost
          | some k => match ops[k]? with
            | none => .next lost
            | some o => if answerFits o p then .next ((s.takeAnswer t k o p).pump t) else .next lost

/-- An operation unanswered 67,108,864 cycles after it left fails (R219). -/
def execResponseTimeout (t opid : Nat) (s : State) : Out :=
  onTile t s fun s =>
    let ops := (s.tile t).ni.ops
    match ops.findIdx? fun o => o.id = opid with
    | none => .next s
    | some k => match ops[k]? with
      | some o => match o.st with
        | .sent a => if a + 67108864 ≤ s.now then .next ((s.answerOp t k o .responseTimeout).pump t) else .next s
        | _ => .next s
      | none => .next s

/-- A SEND that has waited TILE_SEND_WAIT.WAIT cycles for credits is cancelled (R236). -/
def execQfullTimeout (t opid : Nat) (s : State) : Out :=
  onTile t s fun s =>
    let n := (s.tile t).ni
    match n.ops.findIdx? fun o => o.id = opid with
    | none => .next s
    | some k => match n.ops[k]? with
      | some o =>
        if o.kind = .send && o.unsent && n.sendWait ≤ o.waited then .next ((s.answerOp t k o .qfullTimeout).pump t)
        else .next s
      | none => .next s

end Sys2Proof.Machine
end

