-- ==== Sys2Proof/Machine/Host.lean ====
section
/-! DEFINITION. The PCI Express ports: what takes a port down and brings it up, and the operations of space 4 (R22, R258,
R342 to R348, R356, R357, R385, R434). -/

namespace Sys2Proof.Machine

def onPort (h : Nat) (s : State) (f : State → Out) : Out := if h < 4 then f s else .fault .noSuchUnit

/-! ## Ports and the DEGR bits (R356, R357, R385) -/

/-- Is any attachment link of the Pier live (R19, R357)? -/
def State.pierLive (s : State) (h : Nat) : Bool := !(s.live (.pcie h)).isEmpty

/-- The state that HOST_PORT shows: FAILED where the Pier has no live attachment link once routes exist (R357). -/
def State.portState (s : State) (h : Nat) : PortState :=
  if s.mgmt.glostDone && !s.pierLive h then .failed else (s.port h).state

/-- Do the port's windows answer? -/
def State.portUp (s : State) (h : Nat) : Bool := s.portState h = .up

/-- The ports that the image's host section names (Table 12.1). -/
def State.namedPorts (s : State) : List Nat :=
  (List.range 4).filter fun h =>
    (winEntries s.image).any (fun e => e.2.port = h) || (ringEntries s.image).any fun r => r.port = h

/-- Re-evaluate DEGR_PCIE, and READY or DEGRADED once start-up is over (R385). -/
def State.reDegr (s : State) : State :=
  if !s.inService then s else
  s.modMgmt fun m =>
    let m := { m with degrPcie := s.namedPorts.any fun h => !s.portUp h }
    { m with st := if m.degrKs || m.degrField || m.degrVdt || m.degrPcie || m.degrFloor then .degraded else .ready }

/-! ## Requests on the link -/

def State.putOut (s : State) (h : Nat) (rs : List HostReq) : State :=
  s.modPort h fun p => { p with out := p.out ++ rs }

/-- Vector `v` of a port's MSI-X table is masked: bit 0 of its vector control word, 1 at reset (log 24). -/
def PciePort.maskedVec (p : PciePort) (v : Nat) : Bool := bitW (tGet 1 p.msix (4 * v + 3)) 0

/-- Send an MSI-X message, or set its pending bit where it is masked (R354, R426). -/
def State.sendMsix (s : State) (h v : Nat) : State :=
  s.modPort h fun p =>
    if p.maskedVec v then { p with pendBits := p.pendBits ||| BitVec.ofNat 64 (2 ^ v) }
    else { p with out := p.out ++ [.msix v] }

/-- The attachment tile from which a Pier answers an operation: the one at which it arrived, its DEST, unless a route change
has taken that tile from the Pier's choice (R347). -/
def State.answerTile (s : State) (h : Nat) (p : Packet) : Option Nat :=
  if (s.chosen (.pcie h)).contains p.dest then some p.dest else s.attachFor (.pcie h) p.srcTile

/-- A Pier sends the answer to an operation, formed for the attachment tile it leaves from. -/
def State.pierReply (s : State) (h : Nat) (p : Packet) (k : Nat → Packet) : State :=
  match s.answerTile h p with
  | some u => s.edgeSendAt (.pcie h) u { k u with out := false }
  | none => s

/-- Answer a space-4 operation from its Pier with a code (R347). -/
def State.pierAnswer (s : State) (h : Nat) (p : Packet) (c : Code) (old : BitVec 64 := 0) : State :=
  s.pierReply h p fun u => respTo s.mgmt.engId u p p.srcTile p.srcEng c old

/-! ## Rings of a port that goes down -/

/-- The numbers of the rings of a port. -/
def State.ringsOf (s : State) (h : Nat) : List Nat := (s.rings.filter fun e => e.2.port = h).map (·.1)
def State.modRing (s : State) (r : Nat) (f : Ring → Ring) : State :=
  match tGet? s.rings r with
  | some x => { s with rings := tPut s.rings r (f x) }
  | none => s

/-- HOST_RING_FAULT (R350 to R355). -/
def State.ringEvent (s : State) (r c : Nat) : State :=
  s.event 0x0A01 4 (r + 256 * c) (unit := match tGet? s.rings r with | some x => x.port | none => 0)

/-- A ring enters FAULTED or DOWN, or notes the cause in RUNNING, and raises HOST_RING_FAULT (R355). -/
def State.ringFault (s : State) (r : Nat) (st : RingState) (c : Nat) : State :=
  (s.modRing r fun x => { x with state := st, cause := c, fetching := false }).ringEvent r c

/-- A ring of a port that goes down: DOWN with cause 8, the PUT that waits on it answered LINK_DOWN (R356). -/
def State.ringDown (s : State) (h r : Nat) : State :=
  match tGet? s.rings r with
  | none => s
  | some x =>
    let s := match x.full with
      | some (p, _) => s.pierAnswer h p .linkDown
      | none => s
    (s.modRing r fun x => { x with full := none, stopping := false }).ringFault r .down 8

/-- Every operation not answered is answered LINK_DOWN and every ring goes DOWN (R356). -/
def State.dropPort (s : State) (h : Nat) : State :=
  let s := (s.port h).outstanding.foldl (fun s e => s.pierAnswer h e.2 .linkDown) s
  let s := s.modPort h fun p => { p with outstanding := [] }
  (s.ringsOf h).foldl (fun s r => s.ringDown h r) s

/-- A stream without keys, outside its secure state. -/
def IdeStream.erased : IdeStream := {}

/-- The SPDM sessions of a port's transport end, and its IDE streams lose their keys (R417, R419). -/
def State.endSecure (s : State) (h : Nat) : State :=
  s.modSgr fun g => { g with
    sessions := g.sessions.filter fun e => e.2.tr ≠ .port h
    streams := g.streams.filter fun e => e.1 / 4 ≠ h }

/-- The Keystone on the edge of port `h`. -/
def portSide (h : Nat) : Side := if h < 2 then .south else .north

/-- A replacement that reads host memory through a port which goes down fails with cause 16 (Table 13.4). -/
def State.rcvLost (s : State) (h : Nat) : State :=
  let k := portSide h
  let r := (s.ks k).rcv
  if r.port = h && (r.phase = .checking || r.phase = .programming) then
    (s.modKs k fun x => { x with rcv := { x.rcv with phase := .failed, cause := 16 } }).event 0x0801 2
      (16 + if k = .north then 65536 else 0)
  else s

/-- A port that is up goes down: PCIE_LINK_DOWN once, DEGR_PCIE (R356). -/
def State.portDown (s : State) (h : Nat) : State :=
  if (s.port h).state ≠ .up then s else
  let s := s.modPort h fun p => { p with state := .down, downs := satAdd 255 p.downs 1 }
  ((((s.event 0x0A02 4 h (unit := h)).dropPort h).endSecure h).rcvLost h).reDegr

/-- The configuration space, BARs and MSI-X table return to their reset values (R356, R434). -/
def PciePort.configReset (p : PciePort) : PciePort := { p with bme := false, msix := [], pendBits := 0, v0Due := false }

/-- A port is FAILED, its Pier rail off (R357); it stays so until cold reset. -/
def State.failPort (s : State) (h : Nat) : State :=
  let s := s.portDown h
  let s := s.modPort h fun p => { p with state := .failed, linkUp := false, rate := 0, width := 0, out := [], ni := {} }
  let s := (s.ringsOf h).foldl (fun s r => s.modRing r fun x => { x with flight := [], fetching := false }) s
  s.reDegr

/-- Why a port goes down, for the port's own state: the data link layer, a reset, or Bus Master Enable. -/
def PciePort.lose (p : PciePort) : DownCause → PciePort
  | .dlDown => { p with linkUp := false, rate := 0, width := 0, out := [] }
  | .hotReset => { p.configReset with linkUp := false, rate := 0, width := 0, out := [] }
  | .flr => p.configReset
  | .bmeCleared => { p with bme := false }
  | .clockFault => { p with linkUp := false, rate := 0, width := 0, out := [] }

/-- PCIE_LINK_DOWN (R356). -/
def execPcieLinkDown (h : Nat) (why : DownCause) (s : State) : Out :=
  onPort h s fun s =>
    if (s.port h).state = .failed then .next s
    else .next ((s.portDown h).modPort h (·.lose why))

/-- DL_Up: the port trains at ×8 or ×16 and one of three rates; it is UP, the first time or with Bus Master Enable set
(R258, R342, R356). -/
def execPcieLinkUp (h : Nat) (rate width : Nat) (s : State) : Out :=
  onPort h s fun s =>
    let p := s.port h
    if !s.mgmt.pcieRails || !p.perst || p.linkUp || p.state = .failed || rate = 0 || 3 < rate || width = 0 || 2 < width
    then .next s
    else .next (s.modPort h fun p =>
      { p with linkUp := true, trained := true, rate := rate, width := width,
               state := if p.bme || !p.trained then .up else p.state }).reDegr

/-- The host sets Bus Master Enable; on a port whose link is up the windows answer once more (R356). -/
def execBusMasterEnableSet (h : Nat) (s : State) : Out :=
  onPort h s fun s =>
    .next (s.modPort h fun p =>
      { p with bme := true, state := if p.linkUp && p.state = .down then .up else p.state }).reDegr

/-- PERST#h low takes the port down (R434). -/
def execPerstAssert (h : Nat) (s : State) : Out :=
  onPort h s fun s => .next ((s.portDown h).modPort h fun p =>
    { p with perst := false, linkUp := false, rate := 0, width := 0, out := [] })

/-- PERST#h rises: configuration space, BARs and MSI-X table return to their reset values, and training begins (R434). -/
def execPerstDeassert (h : Nat) (s : State) : Out :=
  onPort h s fun s =>
    if (s.port h).perst then .next s else .next (s.modPort h fun p => { p.configReset with perst := true })

/-! ## Operations of space 4 (R346, R348) -/

/-- Bytes of a completion-ring PUT: the slot without its trailer (R353). -/
def Ring.body (r : Ring) : Nat := 32 * r.esz - 8

/-- The completion ring that a ring window belongs to. -/
def State.winRing (s : State) (w : Nat) : Option (Nat × Ring) :=
  s.rings.find? fun e => e.2.kind = 2 && e.2.win = w

/-- Is it a PUT that a ring window admits (R353)? -/
def State.ringPut (s : State) (p : Packet) : Option Nat :=
  match s.winRing (addrWin p.addr) with
  | some (r, x) => if p.op = .put && addrWinOff p.addr = 0 && p.len = x.body then some r else none
  | none => none

/-- Is the stream of a window in its secure state (R348, R419)? -/
def State.ideSecure (s : State) (h : Nat) (w : Window) : Bool :=
  match w.ide with
  | none => true
  | some j => (tGet {} s.sgr.streams (4 * h + j)).secure.isSome

/-- Does the window admit the operation (R22, R214, R215, R348)? -/
def State.winAdmits (s : State) (h : Nat) (p : Packet) : Bool :=
  match tGet? s.windows (addrWin p.addr) with
  | none => false
  | some w =>
    w.port = h && !w.ring && addrWinOff p.addr + reqLen p ≤ w.len && s.ideSecure h w && !misaligned p
      && (match p.op with
        | .put => w.wr
        | .get => w.rd
        | .atomic => w.atom && (p.sub.toNat % 8 = 0 || p.sub.toNat % 8 = 3 || p.sub.toNat % 8 = 4)
        | .signal => w.atom
        | _ => false)

/-- An access of `n` bytes from `a` on, cut where it crosses a 4 KiB boundary: addresses, offsets and lengths
(Table 16.8). -/
def cut4k (a n : Nat) : List (Nat × Nat × Nat) :=
  let k := min n (4096 - a % 4096)
  if k = n then [(a, 0, n)] else [(a, 0, k), (a + k, k, n - k)]

/-- The requests of an operation on the link. -/
def hostReqs (w : Window) (p : Packet) : List HostReq :=
  let a := w.base + addrWinOff p.addr
  match p.op with
  | .put => (cut4k a p.len).map fun c => .write c.1 ((p.data.drop c.2.1).take c.2.2) w.noSnoop
  | .get => (cut4k a p.len).map fun c => .read c.1 c.2.2
  | .signal => [.atomic a 0 (leBytes 4 1)]
  | _ => [.atomic a p.sub p.data]

/-- Is the packet in the Pier's hands, without taking it? -/
def State.atPier (s : State) (h : Nat) (p : Packet) : Option State := s.takeEdge (.pcie h) p

/-- A Pier carries a space-4 operation to the host, or answers it itself: LINK_DOWN, ADDRESS_FAULT, or OK for a PUT whose
writes have been passed on (R346, R348, R356). A PUT that a ring window admits is COMPLETION_RING_PUT's. -/
def execHostWindowOp (h : Nat) (p : Packet) (s : State) : Out :=
  onPort h s fun s =>
    if !(p.op = .put || p.op = .get || p.op = .atomic || p.op = .signal) then .next s
    else match s.atPier h p with
      | none => .next s
      | some s' =>
        if !s.portUp h then .next (s'.pierAnswer h p .linkDown)
        else if (s.ringPut p).isSome then .next s
        else if !s.winAdmits h p then .next (s'.pierAnswer h p .addressFault)
        else match tGet? s.windows (addrWin p.addr) with
          | none => .next (s'.pierAnswer h p .addressFault)
          | some w =>
            if p.op = .put then .next ((s'.putOut h (hostReqs w p)).pierAnswer h p .ok)
            else match tFree (s.port h).outstanding 768 with
              | none => .next s
              | some k => .next ((s'.putOut h (hostReqs w p)).modPort h fun q =>
                  { q with outstanding := tPut q.outstanding k p })

/-- The answer code of a completion that brings no data (R348). -/
def completionCode : HostCompletion → Code
  | .data _ => .ok
  | .unsupported | .abort => .addressFault
  | .poisoned | .ecrc => .uncorrectable

/-- A host completion answers operation `k` of the port: data, an old value, or a mapped failure (R346, R348). -/
def execHostCompletion (h k : Nat) (c : HostCompletion) (s : State) : Out :=
  onPort h s fun s =>
    match tGet? (s.port h).outstanding k with
    | none => .next s
    | some p =>
      let s := s.modPort h fun q => { q with outstanding := tDel q.outstanding k }
      match c with
      | .data bs =>
        if p.op = .get then
          .next (s.pierReply h p fun u => getResp s.mgmt.engId u p ((bs ++ List.replicate p.len 0).take p.len))
        else .next (s.pierAnswer h p .ok (if p.op = .atomic then BitVec.ofNat 64 (leNat (bs.take 8)) else 0))
      | _ => .next (s.pierAnswer h p (completionCode c))

/-- A completion timeout: of operation `k` below 768, answered UNCORRECTABLE, or of the fetch of ring k − 1,024, which
faults with cause 5 (R348, R355). -/
def execCompletionTimeout (h k : Nat) (s : State) : Out :=
  onPort h s fun s =>
    if 1024 ≤ k then
      match tGet? s.rings (k - 1024) with
      | some x => if x.port = h && x.fetching then .next (s.ringFault (k - 1024) .faulted 5) else .next s
      | none => .next s
    else match tGet? (s.port h).outstanding k with
      | some p =>
        .next ((s.modPort h fun q => { q with outstanding := tDel q.outstanding k }).pierAnswer h p .uncorrectable)
      | none => .next s

end Sys2Proof.Machine
end

