-- ==== Sys2Proof/Machine/Ready.lean ====
section
/-! DEFINITION. Leaving GLOST for READY or DEGRADED, and the states in which every field and Pier rail is off: SAFE, HALTED
and the stops that lead there (R255, R256, R278, R279, R317, R350, R384; Tables 12.2 and 14.7). -/

namespace Sys2Proof.Machine

/-- A field whose rail is turned off (R279, R319). -/
def Field.off (f : Field) : Field :=
  { f with stage := .unpowered, railOff := true, parent := none, good := 0, selfTested := false, tests := [], stretch := 0,
           pace := .normal }

/-- Every field rail goes off: fabric, tiles and links lose their state (R256, R279, R292; Table 14.7). -/
def State.fieldsOff (s : State) : State :=
  let idle := fun (x : Span) => { x with op := none, queued := [], owed := [], faults := [], bankRetry := [] }
  { s with
    tiles := []
    routes := {}
    fields := s.fields.map fun e => (e.1, e.2.off)
    spans := s.spans.map fun e => (e.1, idle e.2) }

/-- No snapshot, parity or rebuild goes on without rails. -/
def Ckpt.stopped (c : Ckpt) : Ckpt :=
  let idle := fun (g : Group) =>
    { g with pn := 0, stripes := [], pieces := [], wrote := [], ends := [], opened := none, rebuilding := false, asked := [], reqs := [] }
  { c with n := 0, waiting := [], capturing := [], data := [], written := false, streams := [], groups := c.groups.map idle }

/-- Every Pier rail goes off: the ports are FAILED (R279, R357; Table 14.7). -/
def State.piersOff (s : State) : State :=
  let s := (List.range 4).foldl (fun s h => s.failPort h) s
  let quiet := fun (r : Ring) => { r with flight := [], fetching := false, full := none, stopping := false }
  let down := fun (p : VdtPort) => if p.state = .unused then p else { p with
    state := .failed, width := 0, used := 0, replay := [], waiting := [], received := [], out := [] }
  { (s.modMgmt fun m => { m with pcieRails := false, vdtRails := false }) with
    ckpt := s.ckpt.stopped
    rings := s.rings.map fun e => (e.1, quiet e.2)
    vdt := { s.vdt with ports := s.vdt.ports.map fun e => (e.1, down e.2), hellos := [], change := [] } }

def State.railsOff (s : State) : State := s.piersOff.fieldsOff

def FieldStage.isQualified : FieldStage → Bool
  | .qualified => true
  | _ => false

/-- Fields qualified, and fields listed in the live map (Table 12.5). -/
def State.upLostNow (s : State) : Nat × Nat :=
  (((List.range Config.nFields).filter fun f => (s.field f).stage.isQualified).length,
   (s.map.recs.filter fun r => match r with | .field .. => true | _ => false).length)

/-- KST_BRINGUP keeps its last values once start-up has ended (R280). -/
def State.keepProgress (s : State) : State :=
  s.modMgmt fun m => { m with upLost := some (m.upLost.getD s.upLostNow) }

/-- SAFE, with its cause (R279). -/
def State.enterSafe (s : State) (cause : Nat) : State :=
  (s.keepProgress.railsOff).modMgmt fun m => { m with st := .safe, safeCause := cause, ksReset := none }

/-- The engine stops on the schedule of Table 14.7 and enters HALTED (R317, R329, R384). -/
def State.halt (s : State) : State :=
  ((s.keepProgress.railsOff).modMgmt fun m => { m with st := .halted, ksReset := none }).modKiln fun k =>
    { k with stopAt := some s.time, gates := [] }

/-- States in which a coolant pin, a hot field or a lost root stops the engine (R255). -/
def State.stoppable (s : State) : Bool :=
  !(s.mgmt.st = .off || s.mgmt.st = .deepOff || s.mgmt.st = .safe || s.mgmt.st = .halted)

/-- Put entries into an empty table. -/
def tOf (l : List (Nat × α)) : Tab α := l.foldl (fun t e => tPut t e.1 e.2) []

/-- The rings of the image, each RUNNING at n = 0 (R350). -/
def imageRings (m : Mem) : Tab Ring :=
  let l := ringEntries m
  tOf (((List.range l.length).map fun i => l[i]?.map fun r => (i, r)).filterMap id)

/-! ## Reachable region (R268, step 4; R278) -/

/-- Are the two ends of the link from `t` in direction `d` joined by a live link? -/
def joined (l : List MapRec) (t : Nat) (d : Dir) : Option Nat :=
  match neighbour t d with
  | none => none
  | some u =>
    let k := linkOf t d
    if listedIn l t || listedIn l u || l.any (fun r => match r with | .link a b _ => a = k.1 && b = k.2 | _ => false)
    then none else some u

/-- The tiles reached from a frontier by live links. -/
def spread : Nat → List MapRec → List Nat → List Nat → List Nat
  | 0, _, seen, _ => seen
  | n + 1, l, seen, front =>
    let new := (front.map fun t => allDirs.filterMap (joined l t)).flatten
    let new := new.foldl (fun a t => if seen.contains t || a.contains t then a else a ++ [t]) []
    if new.isEmpty then seen else spread n l (seen ++ new) new

/-- The usable tiles joined by live links to a live attachment link of the Keystone. -/
def reachable (l : List MapRec) (k : Side) : List Nat :=
  let start := (Block.keystone k).tiles.filter fun t =>
    !listedIn l t && !l.any fun r => match r with | .link u 2 _ => u = t | _ => false
  spread Config.nTiles l start start

/-- A PCI Express port that had trained by the end of the Glost step (R277), with a live attachment link into the reachable
region (R278). -/
def State.pcieReach (s : State) : Bool :=
  let reach := reachable s.map.recs s.mgmt.active
  (List.range 4).any fun h => (s.mgmt.qualPorts.getD []).contains h && (s.live (.pcie h)).any reach.contains

/-- The first SAFE_CAUSE of Table 12.1 that applies where the smallest working set is absent (R278); the condition on PCI
Express ports is tested at the end of GLOST alone, since a port may train until then (R277). -/
def State.absent (s : State) (pcie : Bool) : Option Nat :=
  if !s.kiln.feedA && !s.kiln.feedB then some 1
  else if !s.clk.valid then some 2
  else if (reachable s.map.recs s.mgmt.active).isEmpty then some 3
  else if pcie && !s.pcieReach then some 4
  else none

/-- Is the Glost step complete: every first start has finished or faulted (R276)? -/
def State.glostOver (s : State) : Bool :=
  s.mgmt.st = .glost && s.mgmt.glostDone && s.spans.all fun e => e.2.state ≠ .loading

/-- Once the Glost step is complete: the PCI Express ports that have trained qualify, and port qualification is the step that
is left (R277, R280). -/
def State.glostEnds (s : State) : State :=
  if s.glostOver && s.mgmt.qualPorts.isNone then
    s.modMgmt fun m => { m with step := 10, qualPorts := some ((List.range 4).filter fun h => (s.port h).trained) }
  else s

/-- Is start-up over but for the state change: the Glost step and every Viaduct port's qualification (R256, R276)? -/
def State.startsOver (s : State) : Bool := s.glostOver && s.vdt.ports.all fun e => e.2.state ≠ .training

/-- The last transition of Table 12.2, when both GLOST steps have ended: READY or DEGRADED, or SAFE where the smallest working
set is absent. The windows are copied to the network interfaces, and the rings start (R278, R346, R350). -/
def State.tryReady (s : State) : State :=
  let s := s.glostEnds
  if !s.startsOver then s
  else match s.absent true with
    | some c => s.enterSafe c
    | none =>
      let m := s.image
      ({ (s.keepProgress.modMgmt fun g => { g with st := .ready, step := 11 }) with
          windows := tOf (winEntries m), rings := imageRings m }).reDegr

end Sys2Proof.Machine
end

