-- ==== Sys2Proof/Machine/Span.lean ====
section
/-! DEFINITION. Spans: course changes, drains, first starts, span resets, faults, watchdogs, restarts and the host's span
commands (R83 to R88, R240 to R253, R358, R391, R396, R405). -/

namespace Sys2Proof.Machine

/-- A command about span `n`: a fault for a number that no span has (R240). -/
def onSpan (n : Nat) (s : State) (f : State → Out) : Out := if n < 4096 then f s else .fault .noSuchUnit

def State.modOp (s : State) (n : Nat) (f : SpanOp → SpanOp) : State :=
  s.modSpan n fun x => { x with op := x.op.map f }

/-! ## What the tiles hold (R84 to R87, R247 to R250) -/

/-- Course-c work in flight at a tile: operations and descriptors of another course than the tile's (R85). -/
def Tile.oldWork (x : Tile) : Nat :=
  let old := fun (g : BitVec 14) => decide (tagCourse g ≠ x.course)
  (x.ni.ops.filter fun o => old o.tag).length + (x.eng.mat.filter fun d => old d.tag).length
    + (x.eng.vec.filter fun d => old d.tag).length

/-- Discard `ks`: each counts as a stale token, and the message it stands for is released (R84). -/
def State.staleAll (s : State) (t : Nat) (ks : List Token) : State := ks.foldl (fun s k => (s.stale t).releaseTok t k) s

/-- The tokens of another course that a tile holds, queues left out. -/
def Tile.staleToks (x : Tile) : List Token :=
  let old := fun k : Token => decide (tagCourse k.tag ≠ x.course)
  let entries := (x.df.table.filter fun e => match e.2.state with
    | .part | .ready _ => decide (tagCourse e.2.tag ≠ x.course)
    | _ => false)
  (entries.map fun e => e.2.ops.filterMap id).flatten ++ (x.df.pend.map (·.tok)).filter old ++ x.df.out.filter old
    ++ x.df.ltb.filter old

/-- The match entries, pending entries, steering outputs and local tokens of another course leave. -/
def Tile.dropOld (x : Tile) : Tile :=
  let c := x.course
  x.modDf fun d => { d with
    table := d.table.filter fun e => match e.2.state with
      | .part | .ready _ => decide (tagCourse e.2.tag = c)
      | _ => true
    pend := d.pend.filter fun p => tagCourse p.tok.tag = c
    out := d.out.filter fun k => tagCourse k.tag = c
    ltb := d.ltb.filter fun k => tagCourse k.tag = c
    matchFullRaised := false }

/-- The messages of queue `i` that have not become tokens and are of another course. Those of an unbound queue, which make no
token (R67), are among them (DESIGN CHOICE, log 77). -/
def Tile.staleMsgs (x : Tile) (i : Nat) : List Token :=
  let q := x.queue i
  if q.comb then
    (if x.comb.held && !x.comb.taken && tagCourse x.comb.tag ≠ x.course then [⟨7, x.comb.tag, 0, some (7, 0)⟩] else [])
  else (q.msgs.filter fun m => !m.taken && tagCourse m.tag ≠ x.course).map fun m => ⟨i, m.tag, 0, some (i, m.serial)⟩

/-- Every token of the old course is discarded and counted (R84, R85 step 1). -/
def State.purge (s : State) (t : Nat) : State :=
  let x := s.tile t
  let ks := x.staleToks ++ ((List.range 8).map x.staleMsgs).flatten
  (s.modTile t (·.dropOld)).staleAll t ks

/-- The course command at a tile (R83 to R86); a restart's clears the reset-held bit too (R253). -/
def State.courseAt (s : State) (t : Nat) (restart : Bool) : State :=
  ((s.doStop t).modTile t fun x =>
    { x with course := (x.course + 1) % 4, staleRaised := false, held := if restart then false else x.held }).purge t

/-- Requests of the tile that the local input buffer of its router still holds, on VC0 and VC2. -/
def Tile.localHeld (x : Tile) : List Packet := ((tGet [] x.rtr.bufs 0) ++ (tGet [] x.rtr.bufs 2)).map (·.pkt)

/-- Requests of the tile not yet injected are discarded, those in the local input buffer too (R28, R200); their slots go
back, its answers stay (R248, R250). -/
def Tile.dropRequests (x : Tile) : Tile :=
  { (x.modNi fun n => { n with inj := n.inj.filter fun p => p.vc = 1 }) with
    rtr := { x.rtr with bufs := x.rtr.bufs.filter fun e => !(e.1 = 0 || e.1 = 2) } }

/-- The slots that discarded SENDs and credit requests carried (R250). -/
def Tile.carried (x : Tile) : List Credit :=
  ((x.ni.inj ++ x.localHeld).filter fun p => p.op = .send || p.op = .creditReq).map fun p =>
    ⟨p.deng, (if p.op = .send then addrTile p.addr else if p.out then p.rdest else p.dest), p.queue, p.gen, p.slots, 0⟩

/-- The compute domain of a tile after a span reset: the engines and the sequencer withdraw their requests, and the wait
counters stand (R176); what R247 keeps, with the gate value, whose reset is the field fabric
reset, and the control registers of space 1 (R128, R237; log 17). -/
def Tile.computeReset (x : Tile) : Tile :=
  { x with
    seq := { entry := x.seq.entry, wdogLimit := x.seq.wdogLimit }
    df := { steerWait := x.df.steerWait }
    eng := { gate := x.eng.gate, gateNew := x.eng.gateNew }
    pad := { x.pad with sb := [], freed := [], stream := [], granted := x.pad.granted.filter fun g => 5 ≤ g.input }
    ni := { x.ni with ops := [], credits := [], stopped := [], allStopped := false, failed := [] }
    held := true }

/-- The bytes of a list of writes that have landed when their descriptor is abandoned: the manual does not say which, so each
write is a free choice; none where a consumer entry holds it (R130, R182; log 16). -/
def State.landSome (s : State) (t : Nat) (ws : List (Nat × List Byte)) : State :=
  let pad := (s.tile t).pad
  let r := ws.foldl (fun r w =>
    (if pad.consumerHit w.1 (w.1 + w.2.length - 1) || Config.freePick r.2 % 2 = 0 then r.1 else r.1.padWrite t w.1 w.2, r.2 + 1))
    (s, s.freeCtr)
  { r.1 with freeCtr := r.2 }

/-- The writes that the matrix engine's running descriptor makes, an element of C each, once B is latched. -/
def Tile.cWrites (x : Tile) : List (Nat × List Byte) :=
  match x.eng.mat with
  | [] => []
  | d :: _ =>
    if d.phase ≠ .latched then [] else
    let m := mdesc d.words
    let part := fun (k : Nat × List Byte × AFlags) =>
      (List.range (k.2.1.length / m.ce)).map fun i => (k.1 + i * m.ce, (k.2.1.drop (i * m.ce)).take m.ce)
    ((m.result (padView x.pad) (latchView x.eng)).map part).flatten

/-- The span reset command at a tile (R130, R233, R247, R248, R250). -/
def State.resetAt (s : State) (t : Nat) : State :=
  let n := (s.tile t).ni
  let back := n.credits ++ (s.tile t).carried
  let x := s.tile t
  let s := s.landSome t (x.cWrites ++ (x.eng.vec.map fun d => d.writes.map (·.2)).flatten)
  let s := (s.closeQueues t .spanReset).modTile t fun x => x.dropRequests.computeReset
  (back.foldl (fun s c => s.giveBack t c) s).freeWrites t

/-! ## Operations of the scheduler (R245) -/

/-- Span operations that run. -/
def State.running (s : State) : Nat := (s.spans.filter fun e => e.2.op.isSome).length

/-- May the scheduler begin another operation (R245, R384)? -/
def State.mayBegin (s : State) : Bool := s.running < 64 && s.mgmt.ksReset.isNone

/-- A span reset begins; a span left with no usable tile is HELD at once (R245 to R247, R251). -/
def State.beginReset (s : State) (n rcause ftile : Nat) : State :=
  let none_ := (s.spanTiles n).isEmpty
  (s.modSpan n fun x =>
    { x with state := if none_ then .held else .resetting, rcause := rcause,
             ftile := if rcause = 1 || rcause = 3 then ftile else 0, resets := satAdd 255 x.resets 1,
             op := if none_ then none else some { kind := .reset rcause ftile, step := 1, at_ := s.time },
             queued := [], owed := [] }).event 0x0403 2 rcause none (some n) |>.tryReady

/-- The first queued operation of span `n` begins where it can: a course change once every tile has reported zero old-course
work (R87), a reset. A restart begins by SPAN_RESTART. -/
def State.beginNext (s : State) (n : Nat) : State :=
  let x := s.span n
  if x.op.isSome || !s.mayBegin then s else
  match x.queued with
  | .course l :: q =>
    if x.state = .running && x.owed.all (·.2 = 0) then
      s.modSpan n fun x => { x with state := .changing, queued := q, owed := [],
                                    op := some { kind := .course l, step := 1, at_ := s.time } }
    else s
  | .reset c f :: _ => if x.state = .running || x.state = .changing || x.state = .loading then s.beginReset n c f else s
  | _ => s

/-- Every span whose turn has come. -/
def State.beginAll (s : State) : State := s.spans.foldl (fun s e => s.beginNext e.1) s

/-- A fault of span `n`: the running operation ends with its current step, waiting ones are discarded, and the reset
follows; at once where nothing runs or the operation only waits (R245, R251). -/
def State.faultCore (s : State) (n rcause ftile : Nat) : State :=
  let x := s.span n
  if !(x.state = .loading || x.state = .running || x.state = .changing) then s
  else match x.op with
    | some o =>
      if o.abort then s
      else if o.hostWait || o.capture then
        (s.modSpan n fun x => { x with op := none, queued := [.reset rcause ftile] }).beginNext n
      else s.modSpan n fun x => { x with op := some { o with abort := true }, queued := [.reset rcause ftile] }
    | none => (s.modSpan n fun x => { x with queued := [.reset rcause ftile] }).beginNext n

/-- A faulted operation ends, and the reset begins. -/
def State.endAborted (s : State) (n : Nat) : State := (s.modSpan n fun x => { x with op := none }).beginNext n

/-- The course that the usable tiles of a span hold. -/
def State.tileCourse (s : State) (n : Nat) : Nat :=
  match s.spanTiles n with
  | t :: _ => (s.tile t).course
  | [] => (s.span n).course

/-- A first start, course change or restart has completed step 4: the span is RUNNING and CSTEP advances (R244, R391). -/
def State.finishOp (s : State) (n : Nat) : State :=
  let c := s.tileCourse n
  (s.modSpan n fun x =>
    { x with state := .running, course := c, cstep := (x.cstep + 1) % 2 ^ 24, op := none }).beginAll.tryReady

/-! ## Load and start (R85 steps 3 and 4, R244, R253) -/

/-- Load every content segment of the image that the tile lies in (R253). -/
def State.loadTile (s : State) (t : Nat) : State :=
  let m := s.image
  (directory m).foldl (fun s e =>
    if e.holds t then s.landSeg t e.dest e.loff (segBytes m e.segno 0 e.len) else s) s

/-- Step 3 at one tile: the image at an automatic restart, what the course change brings, else nothing, since the host writes
through its windows or the tile holds it already (R85, R244, R253, R358). -/
def State.stepLoad (s : State) (k : SpanOpKind) (t : Nat) : State :=
  match k with
  | .autoRestart => s.loadTile t
  | .course l => (l.filter (·.tile = t)).foldl (fun s e => s.landSeg t e.dest e.off e.data) s
  | _ => s

/-- START at one tile of a span; a rejected start faults the span (R244, R251). -/
def State.startTile (s : State) (n t : Nat) : State :=
  let s := s.doStart t
  let s := s.modOp n fun o => { o with acked := o.acked ++ [t] }
  if (s.seq t).state = .stopped && (s.seq t).actErr then s.faultCore n 1 t else s

/-- Where every usable tile has started, the operation is complete (R85, R245). -/
def State.endStart (s : State) (n : Nat) : State :=
  match (s.span n).op with
  | some o => if (s.spanTiles n).all o.acked.contains then (if o.abort then s.endAborted n else s.finishOp n) else s
  | none => s

/-- Steps 3 and 4 for the tiles that have reported STOPPED; where every tile has started, the operation is complete. -/
def State.loadStart (s : State) (n : Nat) : State :=
  let k := ((s.span n).op.map (·.kind)).getD .firstStart
  let s := s.modOp n fun o => { o with step := 4, acked := [], hostWait := false, capture := false }
  let ts := (s.spanTiles n).filter fun t => (s.seq t).state = .stopped
  (ts.foldl (fun s t => (s.stepLoad k t).startTile n t) s).endStart n

/-! ## Snapshots that end (R396, R405) -/

/-- CHECKPOINT_LATE for the snapshot in progress (R401, R405, R406). -/
def State.checkpointLate (s : State) (snap : Nat) : State :=
  (s.modCkpt fun c => { c with late := satAdd 255 c.late 1 }).event 0x0902 2 snap

/-- The snapshot in progress is abandoned: spans held for it go on with step 3 (R405). -/
def State.abandonSnapshot (s : State) : State :=
  if s.ckpt.n = 0 then s else
  let held := s.ckpt.capturing
  let s := (s.checkpointLate s.ckpt.n).modCkpt fun c =>
    { c with n := 0, waiting := [], capturing := [], data := [], written := false,
             streams := c.streams.filter fun st => st.serve.isSome }
  held.foldl (fun s n => if (s.span n).op.any (·.capture) then s.loadStart n else s) s

/-- A fault of a span; during its capture the snapshot is abandoned for the engine (R251, R405). -/
def State.faultSpan (s : State) (n rcause ftile : Nat) : State :=
  if (s.span n).op.any (·.capture) then
    ((s.modCkpt fun c => { c with capturing := c.capturing.filter (· ≠ n) }).abandonSnapshot).faultCore n rcause ftile
  else s.faultCore n rcause ftile

/-! ## Course changes (R85 to R88) -/

/-- A course change is requested: it begins, waits its turn, or is refused while the span is held in reset (R245). -/
def execCourseChange (c : CourseReq) (s : State) : Out :=
  onSpan c.span s fun s =>
    let x := s.span c.span
    if x.state = .running || x.state = .changing || x.state = .loading then
      .next ((s.modSpan c.span fun x => { x with queued := x.queued ++ [.course c.loads] }).beginNext c.span)
    else .next s

def SpanOpKind.isCourse : SpanOpKind → Bool
  | .course _ => true
  | _ => false

def SpanOpKind.isRestart : SpanOpKind → Bool
  | .autoRestart | .hostRestart _ => true
  | _ => false

/-- Where every usable tile has the course command, step 1 is over: step 2 begins, or a fault ends the operation (R85,
R245). -/
def State.endHold (s : State) (n : Nat) : State :=
  match (s.span n).op with
  | some o =>
    if (s.spanTiles n).all o.acked.contains then
      (if o.abort then s.endAborted n else s.modOp n fun o => { o with step := 2, at_ := s.time, acked := [] })
    else s
  | none => s

/-- A tile of a span in step 1 receives the course command; with the last one step 2 begins. -/
def execCourseCommand (t : Nat) (s : State) : Out :=
  onTile t s fun s =>
    match s.spanOf t with
    | none => .next s
    | some n => match (s.span n).op with
      | none => .next s
      | some o =>
        if (o.kind.isCourse || o.kind.isRestart) && o.step = 1 && s.usable t && !o.acked.contains t then
          .next (((s.courseAt t o.kind.isRestart).modOp n fun o => { o with acked := o.acked ++ [t] }).endHold n)
        else .next s

/-- A tile's report: its count, zero only once its sequencer is STOPPED. -/
def State.drainAt (s : State) (n t : Nat) : State :=
  let x := s.tile t
  let c := x.oldWork
  let stopped := x.seq.state = .stopped
  s.modOp n fun o =>
    { o with counts := if c = 0 && !stopped then o.counts else tPut o.counts t c,
             stopped := if stopped && !o.stopped.contains t then o.stopped ++ [t] else o.stopped }

/-- A tile reports its old-course work, or STOPPED (R85, R87): in step 2; after an expired window, when a late tile is then
loaded and started; and while it owes the next change a zero. -/
def execDrainReport (t : Nat) (s : State) : Out :=
  onTile t s fun s =>
    match s.spanOf t with
    | none => .next s
    | some n =>
      let c := (s.tile t).oldWork
      let s := if (tGet? (s.span n).owed t).isSome then
          (s.modSpan n fun x => { x with owed := tSet 0 x.owed t c })
        else s
      match (s.span n).op with
      | some o =>
        if o.step = 2 && !o.hostWait then .next (s.drainAt n t)
        else if o.step = 4 && !o.acked.contains t && s.usable t && (s.seq t).state = .stopped then
          .next (((s.stepLoad o.kind t).startTile n t).endStart n)
        else .next s
      | none => .next (s.beginNext n)

/-- The DOWNS counts of the ports of windows, added up: it rises when one of the ports goes down (R356, R405). -/
def State.winDowns (s : State) (wins : List Nat) : Nat :=
  (wins.map fun w => match tGet? s.windows w with
    | some x => (s.port x.port).downs
    | none => 0).sum

/-- Does a rebuild that this engine serves read the slot that the snapshot would write (R404)? -/
def Ckpt.deferred (c : Ckpt) : Bool := c.streams.any fun st => st.serve = some (c.n % 2)

/-- A span's capture begins; the first one dates the snapshot (R396, Table 19.4). -/
def State.beginCapture (s : State) (n : Nat) : State :=
  let downs := s.winDowns (parWins s.image)
  s.modCkpt fun c =>
    let first := c.capturing.isEmpty && c.data.isEmpty
    { c with waiting := c.waiting.filter (· ≠ n), capturing := c.capturing ++ [n],
             firstAt := if first then s.clk.master else c.firstAt,
             mapGen := if first then s.map.gen else c.mapGen,
             downs := if first then downs else c.downs }

/-- Step 2 has ended: the host's loads, a capture, or steps 3 and 4 follow (R85, R358, R396). -/
def State.afterDrain (s : State) (n : Nat) (o : SpanOp) (residual : Bool) : State :=
  if o.abort then s.endAborted n
  else if o.kind = .hostRestart true then
    (s.modOp n fun o => { o with hostWait := true }).modStatus fun x => { x with result := 5, cmd := 2, cmdSpan := n }
  else if o.kind.isCourse && !residual && s.ckpt.waiting.contains n && !s.ckpt.deferred then
    (s.modOp n fun o => { o with step := 3, capture := true }).beginCapture n
  else s.loadStart n

/-- Every usable tile has reported zero. -/
def State.drained (s : State) (n : Nat) (o : SpanOp) : Bool :=
  (s.spanTiles n).all fun t => tGet? o.counts t = some 0 && o.stopped.contains t

def execDrainEnd (n : Nat) (s : State) : Out :=
  onSpan n s fun s =>
    match (s.span n).op with
    | some o =>
      if o.step = 2 && !o.hostWait && s.drained n o && s.mgmt.ksReset.isNone then
        .next ((s.modSpan n fun x => { x with residual := 0, owed := [] }).afterDrain n o false)
      else .next s
    | none => .next s

/-- The drain window expires with work in flight: the residual is recorded, the change goes on (R87). -/
def execDrainWindowExpiry (n : Nat) (s : State) : Out :=
  onSpan n s fun s =>
    match (s.span n).op with
    | some o =>
      if o.step = 2 && !o.hostWait && !s.drained n o && o.at_ + Config.us (s.span n).layout.drainUs ≤ s.time
          && s.mgmt.ksReset.isNone then
        let work := (s.spanTiles n).map fun t => (t, (s.tile t).oldWork)
        let owed := work.filter fun e => e.2 ≠ 0
        let sum := (owed.map (·.2)).sum
        .next (((s.modSpan n fun x => { x with residual := min 2047 sum, owed := owed }).modOp n fun o =>
          { o with expired := true }).afterDrain n { o with expired := true } (sum ≠ 0))
      else .next s
    | none => .next s

/-! ## First starts (R201, R243, R244, R305) -/

/-- A tile with a program of the span is listed (R243). -/
def State.placementFails (s : State) (n : Nat) : Bool := (s.progTiles n).any fun t => !s.usable t

/-- The span cannot be placed: PLACE_FAIL, held in reset (R243). -/
def State.placeFail (s : State) (n : Nat) : State :=
  let s := (s.modSpan n fun x =>
    { x with state := .placeFail, rcause := 5, ftile := 0, resets := satAdd 255 x.resets 1, op := none, queued := [] }).event
    0x0403 2 5 none (some n)
  ((s.spanTiles n).foldl (fun s t => s.modTile t fun x => { x with held := true }) s).tryReady

/-- The first start of a span in course 0 (R244). -/
def execSpanFirstStart (n : Nat) (s : State) : Out :=
  onSpan n s fun s =>
    let x := s.span n
    if s.mgmt.st ≠ .glost || x.state ≠ .loading || x.op.isSome || !s.mayBegin then .next s
    else if s.placementFails n then .next (s.placeFail n)
    else
      let s := (s.spanTiles n).foldl (fun s t => s.modTile t fun y =>
        { (y.modRtr fun r => { r with arbWait := x.layout.arb }) with course := 0, held := false }) s
      let s := s.modSpan n fun x => { x with op := some { kind := .firstStart, step := 3, at_ := s.time }, wdog := 0 }
      .next ((s.bankOrders n).loadStart n)

/-! ## Span reset (R247, R253) -/

def execSpanResetCommand (t : Nat) (s : State) : Out :=
  onTile t s fun s =>
    match s.spanOf t with
    | none => .next s
    | some n => match (s.span n).op with
      | some o => match o.kind with
        | .reset .. =>
          if s.usable t && (tGet? o.counts t).isNone then
            .next ((s.resetAt t).modOp n fun o => { o with counts := tPut o.counts t s.now })
          else .next s
        | _ => .next s
      | none => .next s

/-- Where every usable tile has reported its reset, the span is HELD (R247). -/
def State.endReset (s : State) (n : Nat) : State :=
  match (s.span n).op with
  | some o =>
    if (s.spanTiles n).all o.stopped.contains then (s.modSpan n fun x => { x with state := .held, op := none }).beginAll else s
  | none => s

/-- A tile of the span has left the usable ones: a step that waited for nothing else is over (R245, R247). -/
def State.settleOp (s : State) (n : Nat) : State :=
  match (s.span n).op with
  | some o => match o.kind with
    | .reset .. => s.endReset n
    | k => if (k.isCourse || k.isRestart) && o.step = 1 then s.endHold n
           else if o.step = 4 then s.endStart n else s
  | none => s

/-- 64 cycles after its reset a tile reports; with the last report the span is HELD (R247). -/
def execSpanResetReport (t : Nat) (s : State) : Out :=
  onTile t s fun s =>
    match s.spanOf t with
    | none => .next s
    | some n => match (s.span n).op with
      | some o => match o.kind, tGet? o.counts t with
        | .reset .., some a =>
          if s.now < a + 64 || o.stopped.contains t then .next s
          else
            .next ((s.modOp n fun o => { o with stopped := o.stopped ++ [t] }).endReset n)
        | _, _ => .next s
      | none => .next s

/-! ## Faults and the watchdog (R251, R252) -/

/-- Does the rectangle hold a tile of the field (R14)? -/
def SpanRec.meetsField (r : SpanRec) (f : Nat) : Bool :=
  let x := fieldX f * 128
  let y := fieldY f * 192
  x ≤ r.x1 && r.x0 ≤ x + 127 && y ≤ r.y1 && r.y0 ≤ y + 191

/-- Does the fault exist, and is it one of span `n`'s: the cause and the tile it names (R251)? -/
def State.spanCause (s : State) (n : Nat) : SpanFaultCause → Option (Nat × Nat)
  | .trapped t => if s.spanOf t = some n && (s.seq t).state = .trapped then some (1, t) else none
  | .retired t => if (s.span n).faults.contains (.retired t) then some (3, t) else none
  | .supply f => if (s.span n).faults.contains (.supply f) then some (4, 0) else none

def execSpanFault (n : Nat) (why : SpanFaultCause) (s : State) : Out :=
  onSpan n s fun s =>
    match s.spanCause n why with
    | some (c, t) =>
      .next (((s.modSpan n fun x => { x with faults := x.faults.filter (· ≠ why) }).faultSpan n c t).settleOp n)
    | none => .next s

/-- Does the watchdog of the span count (R252, R384)? -/
def State.wdogCounts (s : State) (n : Nat) : Bool :=
  let x := s.span n
  (x.state = .running || x.state = .changing) && !(x.op.any (·.hostWait)) && s.mgmt.ksReset.isNone && x.layout.wdogMs ≠ 0

/-- Millisecond of master global time. -/
def State.masterMs (s : State) : Nat := s.clk.master / 1000000

/-- A millisecond boundary: the count returns to 0 after a heartbeat, else advances where the span counts. -/
def execSpanWatchdogBoundary (n : Nat) (s : State) : Out :=
  onSpan n s fun s =>
    if s.masterMs ≤ (s.span n).boundary then .next s
    else
      let counts := s.wdogCounts n
      .next (s.modSpan n fun x =>
        { x with boundary := s.masterMs, beat := false,
                 wdog := if !counts then x.wdog else if x.beat then 0 else x.wdog + 1 })

/-- The count has reached WDOG_MS: the span faults with RCAUSE 2. -/
def execSpanWatchdogExpiry (n : Nat) (s : State) : Out :=
  onSpan n s fun s =>
    if s.wdogCounts n && (s.span n).layout.wdogMs ≤ (s.span n).wdog then
      .next ((s.faultSpan n 2 0).modSpan n fun x => { x with wdog := 0 })
    else .next s

/-! ## Restarts (R253, R358) -/

/-- The restart that is due: a queued one of the host, or the automatic one. -/
def Span.restartDue (x : Span) : Option SpanOpKind :=
  if x.state ≠ .held || x.op.isSome then none
  else match x.queued with
    | .hostRestart l :: _ => some (.hostRestart l)
    | _ => if x.layout.autorst && (x.rcause = 1 || x.rcause = 2) && x.resets < 255 then some .autoRestart else none

/-- Does the span hold a tile of a dead field (R253, R358)? -/
def State.deadField (s : State) (n : Nat) : Bool :=
  s.map.recs.any fun m => match m with
    | .field f .. => (s.span n).layout.meetsField f
    | _ => false

/-- The scheduler restarts a held span: placement check of an automatic restart, then a course change; a span with a dead
field stays HELD (R243, R253). -/
def execSpanRestart (n : Nat) (s : State) : Out :=
  onSpan n s fun s =>
    match (s.span n).restartDue with
    | none => .next s
    | some k =>
      if !s.mayBegin then .next s
      else if k = .autoRestart && s.placementFails n then .next (s.placeFail n)
      else if k = .autoRestart && s.deadField n then .next s
      else
        let s := s.modSpan n fun x => { x with state := .changing, queued := x.queued.drop (if k = .autoRestart then 0 else 1),
                                               op := some { kind := k, step := 1, at_ := s.time }, wdog := 0 }
        .next (s.bankOrders n)

/-! ## The host's span commands (Tables 16.10 and 16.11) -/

/-- HOST_SPAN_CMD's fields. -/
def spanCmdKey (v : Word) : Nat := bitsW v 16 16
def spanCmdLoad (v : Word) : Bool := bitW v 15
def spanCmd (v : Word) : Nat := bitsW v 12 2
def spanCmdSpan (v : Word) : Nat := bitsW v 0 12

def State.spanResult (s : State) (v : Word) (r : Nat) : State :=
  s.modStatus fun x => { x with result := r, cmd := spanCmd v, cmdSpan := spanCmdSpan v }

/-- A command with its key, for `cmd`; another word has no effect. -/
def spanCommand (v : Word) (cmd : Nat) (s : State) (f : Nat → State) : Out :=
  if spanCmdKey v ≠ 0x59A7 || spanCmd v ≠ cmd then .next s
  else if (s.span (spanCmdSpan v)).state = .unused then .next (s.spanResult v 4)
  else .next (f (spanCmdSpan v))

def execHostSpanReset (v : BitVec 32) (s : State) : Out :=
  spanCommand v 1 s fun n =>
    let x := s.span n
    if x.state = .running || x.state = .changing then
      ((s.spanResult v 1).modSpan n fun x => { x with queued := x.queued ++ [.reset 6 0] }).beginNext n
    else s.spanResult v 2

def execHostSpanRestart (v : BitVec 32) (s : State) : Out :=
  spanCommand v 2 s fun n =>
    let x := s.span n
    if x.state ≠ .held || !x.queued.isEmpty then s.spanResult v 2
    else if s.placementFails n || s.deadField n then s.spanResult v 3
    else (s.spanResult v 1).modSpan n fun x => { x with queued := [.hostRestart (spanCmdLoad v)] }

def execHostSpanStart (v : BitVec 32) (s : State) : Out :=
  spanCommand v 3 s fun n =>
    if (s.span n).op.any (·.hostWait) then (s.spanResult v 1).loadStart n else s.spanResult v 2

end Sys2Proof.Machine
end

