-- ==== Sys2Proof/Machine/Complex.lean ====
section
/-! DEFINITION. The active Keystone's own operations: the live map, retirements, the active role, the rejection of an
image (R29 to R33, R256, R268, R292, R293, R319, R378 to R383). -/

namespace Sys2Proof.Machine

/-! ## The live map (R30, R32, R33) -/

/-- Place of a record: field records by field number, tile records by tile ID, link records by tile ID and DIR (R30). -/
def MapRec.key : MapRec → Nat
  | .field f _ _ => f
  | .tile t _ _ => 2 ^ 22 + t
  | .link t d _ => 2 ^ 24 + 4 * t + d

/-- Insert a record in order; a part that is listed already keeps its record. -/
def mapInsert (r : MapRec) : List MapRec → List MapRec
  | [] => [r]
  | q :: l => if r.key < q.key then r :: q :: l else if r.key = q.key then q :: l else q :: mapInsert r l

/-- The far end tile of a link, if it has one. -/
def farEnd (t d : Nat) : Option Nat :=
  if d = 0 then neighbour t .east else if d = 1 then neighbour t .north else none

/-- Does R30 permit the record beside the others? A link record names a link that is there: one between two tiles, or that of
an attached outward port (R16, R17). -/
def mapPermits (l : List MapRec) : MapRec → Bool
  | .field .. => true
  | .tile t _ _ => !l.any fun r => match r with | .field f _ _ => f = fieldOf t | _ => false
  | .link t d _ => !listedIn l t && (match farEnd t d with | some u => !listedIn l u | none => d = 2 && (outDir t).isSome)

/-- The records of a map in R30's order, with those that R30 does not permit dropped. -/
def mapNorm (l : List MapRec) : List MapRec :=
  let l := l.foldl (fun m r => mapInsert r m) []
  l.filter (mapPermits l)

/-- The field in which a record lies (R33). -/
def MapRec.fieldIn : MapRec → Nat
  | .field f _ _ => f
  | .tile t _ _ => fieldOf t
  | .link t _ _ => fieldOf t

/-- The unlisted field with the most records; the lower number wins a tie (R33). -/
def heaviest (l : List MapRec) : Option Nat :=
  let open_ := (List.range Config.nFields).filter fun f => !l.any fun r => match r with | .field g _ _ => g = f | _ => false
  let weight := fun f => (l.filter fun r => r.fieldIn = f).length
  open_.foldl (fun b f => match b with | none => some f | some g => if weight g < weight f then some f else some g) none

/-- Records of the map's area in the status window (R33). -/
def mapRoom : Nat := 1048572

/-- List whole fields with CAUSE 3 until the map fits (R33): the map, and the fields. -/
def mapFit : Nat → Nat → List MapRec → List Nat → List MapRec × List Nat
  | 0, _, l, fs => (l, fs)
  | n + 1, phase, l, fs =>
    if l.length ≤ mapRoom then (l, fs)
    else match heaviest l with
      | some f => mapFit n phase (mapNorm (.field f phase 3 :: l)) (fs ++ [f])
      | none => (l, fs)

/-- Usable tiles under a map in R30's order (R29). -/
def mapUsable (l : List MapRec) : Nat :=
  Config.nTiles - (l.map fun r => match r with | .field .. => 24576 | .tile .. => 1 | .link .. => 0).sum

/-- Is the field listed and not in the factory map? -/
def State.newField (s : State) : Bool :=
  s.map.recs.any fun r => match r with
    | .field f _ _ => !s.map.factory.any fun q => match q with | .field g _ _ => g = f | _ => false
    | _ => false

/-- A fault of every span that the field meets is due (R33, R251, R319). -/
def State.dueField (s : State) (f : Nat) (why : Nat → SpanFaultCause) : State :=
  { s with spans := s.spans.map fun e =>
      if e.2.state ≠ .unused && e.2.layout.meetsField f then
        let t := tileId (max e.2.layout.x0 (fieldX f * 128)) (max e.2.layout.y0 (fieldY f * 192))
        (e.1, { e.2 with faults := e.2.faults ++ [why t] })
      else e }

/-- The tiles of a field lose power. -/
def State.clearField (s : State) (f : Nat) : State :=
  { s with tiles := s.tiles.filter fun e => fieldOf e.1 ≠ f }

/-- The link-state bits of the usable routers on the ring just outside a field (R383). -/
def State.ringBits (s : State) (f : Nat) : State :=
  let x0 := fieldX f * 128
  let y0 := fieldY f * 192
  let side := fun (ts : List Nat) (d : Dir) (s : State) => ts.foldl (fun s t =>
    if s.usable t then s.modTile t (·.modRtr fun r => { r with blocked := r.blocked ||| BitVec.ofNat 4 (2 ^ d.code) })
    else s) s
  let xs := (List.range 128).map (x0 + ·)
  let ys := (List.range 192).map (y0 + ·)
  let s := if 0 < x0 then side (ys.map fun y => tileId (x0 - 1) y) .east s else s
  let s := if x0 + 128 < Config.cols then side (ys.map fun y => tileId (x0 + 128) y) .west s else s
  let s := if 0 < y0 then side (xs.map fun x => tileId x (y0 - 1)) .north s else s
  if y0 + 192 < Config.rows then side (xs.map fun x => tileId x (y0 + 192)) .south s else s

/-- A route change is due: the next one takes the retirement in (R380). -/
def State.routeDue (s : State) : State := { s with routes := { s.routes with fold := true } }

/-- Write the live map with more records (R32, R33): GENERATION advances by 2; fields listed for want of room go off, routes
pass around them, and their spans fault with RCAUSE 3; DEGR_FIELD and DEGR_FLOOR are set (Table 12.1). -/
def State.addRecords (s : State) (phase : Nat) (rs : List MapRec) : State :=
  let fit := mapFit Config.nFields phase (mapNorm (s.map.recs ++ rs)) []
  let u := mapUsable fit.1
  let s := { s with map := { s.map with gen := (s.map.gen + 2) % 2 ^ 32, recs := fit.1, usable := u } }
  let s := fit.2.foldl (fun s f => (((s.modField f Field.off).clearField f).ringBits f).dueField f .retired) s
  let s := if s.mgmt.glostDone && !fit.2.isEmpty then s.routeDue else s
  (s.modMgmt fun m =>
    { m with degrField := m.degrField || s.newField, degrFloor := m.degrFloor || decide (u < Config.floor) }).reDegr

/-! ## Retirements in service (R378 to R383) -/

/-- A tile is retired: the live map, TILE_RETIRED, a route change, the fault of its span; it is held in reset until cold
reset (R378, R380, R382). -/
def State.retire (s : State) (t cause : Nat) : State :=
  if !s.usable t then s else
  let s := ((s.addRecords 3 [.tile t 3 cause]).event 0x0804 2 1 (some (fieldOf t)) (s.spanOf t) (some t)).routeDue
  let s := s.modTile t fun x => { x with held := true }
  match s.spanOf t with
  | some n => s.modSpan n fun x => { x with faults := x.faults ++ [.retired t] }
  | none => s

/-- A link is retired: it enters the live map with PHASE 3 and faults no span (R197, R381). -/
def State.retireLink (s : State) (t : Nat) (d : Dir) : State :=
  let l := linkOf t d
  (s.addRecords 3 [.link l.1 l.2 3]).routeDue

/-- A field is lost in service: its rail is off until cold reset, the ring routers turn traffic away, the field is listed
with PHASE 3 and CAUSE 1, its spans fault with RCAUSE 4, routes change (R319, R383). -/
def State.loseField (s : State) (f : Nat) : State :=
  let s := (s.modField f fun x => { x.off with tripped := true }).clearField f
  let s := s.ringBits f
  ((s.addRecords 3 [.field f 3 1]).dueField f fun _ => .supply f).routeDue

/-! ## The active role (R256, R258, R292) -/

/-- The firmware section is loaded at SRAM offset 0 of the Keystone that becomes active (Table 13.3). -/
def State.loadFirmware (s : State) (k : Side) : State :=
  s.modKs k fun x => match sect x.img 1 with
    | some f => { x with sram := mPutBytes 0 x.sram 0 (imgBytes x.img f.off f.len) }
    | none => x

/-- The role passes to the other Keystone: PEER reads 0, every field rail goes off, and the Bisque pass starts again from
the other edge, with a root still to be elected (R256). -/
def State.passRole (s : State) (st : EngState) : State :=
  let old := s.mgmt.active
  let s := s.modKs old fun x => { x with lostRole := true }
  let m : DefectMap := { factory := s.map.factory, recs := s.map.factory, usable := mapUsable s.map.factory,
                         gen := (s.map.gen + 2) % 2 ^ 32 }
  let s : State := { s.fieldsOff with spans := [], vdt := {}, map := m, routes := { recs := m.recs } }
  -- a field whose regulator has tripped stays off until cold reset (R319)
  let keep := fun (f : Field) => if f.tripped then { f with stage := .listed 1 } else f
  let s := { s with fields := s.fields.map fun (e : Nat × Field) => (e.1, keep e.2) }
  let s := s.modMgmt fun m => { m with
    st := st, active := old.other, peer := false, degrKs := true, degrField := false, degrFloor := false,
    degrVdt := false, electedAt := s.time, bisqueAt := s.time, windowAt := none, mapAt := none, closeAt := none,
    glostDone := false, segsSent := [], segAt := none, qualPorts := none, step := 3, linkProg := 0, wave := 0 }
  let s := s.modKiln fun k => { k with fstep := 0, fpend := 0, pend := false }
  (s.modClk fun c => { c with valid := false, core := false, off := [] }).loadFirmware old.other

/-- The active Keystone is lost during start-up: the role passes where PEER is 1, else SAFE with the cause given
(R256, R260, R292). -/
def State.loseActive (s : State) (st : EngState) (cause : Nat) : State :=
  if s.mgmt.peer then s.passRole st else s.enterSafe cause

def sideBit : Side → Nat
  | .south => 0
  | .north => 1

/-- IMAGE_SIG_FAIL (R257, R292, R295). -/
def State.sigFail (s : State) (k : Side) (cause sectn : Nat) : State :=
  s.event 0x0801 2 (cause + 256 * sectn + 65536 * sideBit k)

/-- The SHA-384 digest of image bytes 0 to SIG_OFF − 1 (R285). -/
def imgDigest (m : Mem) : Nat := Config.sha384 (imgBytes m 0 (hdrSigOff m))

/-- The active Keystone rejects its image: rails off, IMAGE_SIG_FAIL, VERDICT 4, and the rejection record is written; the
role passes when that is over (R292). -/
def State.rejectImage (s : State) (cause sectn : Nat) : State :=
  let k := s.mgmt.active
  if (s.ks k).rejecting.isSome then s else
  (s.fieldsOff.modKs k fun x => { x with verdict := 4, cause := cause, sect := sectn, rejecting := some s.time }).sigFail k cause sectn

/-- Byte address of the status sector (Table 13.1). -/
def statusSector : Nat := 0x7FE0000

/-- The rejection record (R293). -/
def rejectionRecord (cause sectn digest : Nat) : List Byte :=
  leBytes 4 1 ++ leBytes 2 cause ++ leBytes 1 sectn ++ [0xFF] ++ leBytes 48 digest ++ List.replicate 8 0xFF

/-- Erase a range of the flash device: its bytes read 0xFF. -/
def eraseFlash (m : Mem) (a n : Nat) : Mem := m.filter fun c => !(a ≤ c.1 && c.1 < a + n)

end Sys2Proof.Machine
end

