-- ==== Sys2Proof/Machine/Image.lean ====
section
/-! DEFINITION. Verification of an image and its rejection (R282 to R293, R407 to R412). -/

namespace Sys2Proof.Machine

def zerosIn (bs : List Byte) (a n : Nat) : Bool := allZero ((bs.drop a).take n)

/-! ## Step 1 (R284 to R286) -/

/-- The header passes R284, with `area` the room for the image. -/
def headerOk (m : Mem) (area : Nat) : Bool :=
  let n := hdrNsect m
  let len := hdrLen m
  hdrMagic m = 0x41465350 && hdrFmt m = 1 && within 1 n 32 && within 8192 len 67108864 && len % 4096 = 0 && len ≤ area
    && hdrSecver m ≤ 255 && hdrSigOff m = len - 4096 && hdrChainOff m % 4096 = 0 && within 1 (hdrChainLen m) 16384
    && imgZero m 36 28 && imgZero m (64 + 64 * n) (4096 - 64 - 64 * n)

/-- An entry of the section table passes R285 and R286. -/
def sectOk (m : Mem) (x : Sect) : Bool :=
  within 1 x.type 9 && imgZero m (x.at_ + 1) 3 && imgZero m (x.at_ + 12) 4 && x.off % 4096 = 0 && sectLenOk x.type x.len
    && 4096 ≤ x.off && x.off + x.len ≤ hdrSigOff m && apart x.off x.len (hdrChainOff m) (hdrChainLen m)

/-- No two sections overlap. -/
def sectsApart : List Sect → Bool
  | [] => true
  | x :: l => l.all (fun y => apart x.off x.len y.off y.len) && sectsApart l

/-- The section table and the rest of the layout pass R285 and R286. -/
def tableOk (m : Mem) : Bool :=
  let xs := sects m
  4096 ≤ hdrChainOff m && hdrChainOff m + hdrChainLen m ≤ hdrSigOff m && xs.all (sectOk m) && sectsApart xs && noDup (xs.map (·.type))
    && (List.range 10).all (fun k => !sectRequired k || xs.any (·.type = k))
    && imgZero m (hdrSigOff m + 98) (4096 - 98)

/-! ## Steps 2 to 4 (R407 to R409) -/

/-- Bytes of the owner certificate chain. -/
def chainAt (m : Mem) (a n : Nat) : List Byte := imgBytes m (hdrChainOff m + a) n
def chainLe (m : Mem) (a n : Nat) : Nat := leNat (chainAt m a n)
def chainKeys (m : Mem) : Nat := chainLe m 4 2
/-- Byte of the chain at which certificate i begins. -/
def certAt (i : Nat) : Nat := 128 + 256 * i

/-- Certificate i passes R409. -/
def certOk (m : Mem) (i : Nat) : Bool :=
  let c := certAt i
  Config.onCurve (chainAt m c 97) && chainLe m (c + 97) 1 < 2 && allZero (chainAt m (c + 100) 60)
    && chainLe m (c + 98) 1 ≤ chainLe m (c + 99) 1
    && Config.ecdsaOk (chainAt m 8 97) (Config.sha384 (chainAt m c 160)) (chainAt m (c + 160) 96)

/-- The chain passes R409. -/
def chainOk (m : Mem) : Bool :=
  let n := chainKeys m
  chainLe m 0 4 = 0x4E494843 && within 1 n 16 && hdrChainLen m = 128 + 256 * n && allZero (chainAt m 6 2)
    && allZero (chainAt m 105 23) && Config.sha384 (chainAt m 8 97) = Config.rootDigest
    && Config.onCurve (chainAt m 8 97) && (List.range n).all (certOk m)

/-- Every section's digest is that of the table (R289, step 3). -/
def digestsOk (m : Mem) : Bool :=
  (sects m).all fun x => Config.sha384 (imgBytes m x.off x.len) = leNat (imgBytes m (x.at_ + 16) 48)

/-- The signature passes R409: the key it names may sign images of this SECVER, and it verifies. -/
def signatureOk (m : Mem) : Bool :=
  let i := imgLe m (hdrSigOff m + 96) 2
  let c := certAt i
  i < chainKeys m && chainLe m (c + 97) 1 % 2 = 1 && within (chainLe m (c + 98) 1) (hdrSecver m) (chainLe m (c + 99) 1)
    && Config.ecdsaOk (chainAt m c 97) (imgDigest m) (imgBytes m (hdrSigOff m) 96)

/-! ## Step 6 (R287, R288) -/

def rangesApart : List (Nat × Nat × Nat × Bool) → Bool
  | [] => true
  | r :: l => l.all (fun q => r.2.1 < q.1 || q.2.1 < r.1) && rangesApart l

/-- The access ranges pass R287. -/
def rangesOk (m : Mem) : Bool :=
  let rs := ranges m
  rs.all (fun r => r.2.2.2 && (r.2.2.1 = 1 || r.2.2.1 = 2) && r.1 ≤ r.2.1 && 0x200000 ≤ r.1 && r.2.1 ≤ 0x3EFFFF)
    && rangesApart rs

/-- The feed-identity section's other bits are 0 (R288). -/
def feedOk (m : Mem) : Bool :=
  match sect m 8 with
  | some x => bitsN (imgWord m x.off) 4 4 = 0 && bitsN (imgWord m x.off) 9 23 = 0 && imgZero m (x.off + 4) 60
  | none => true

/-- CHECK is 1 and the pins differ from FEED_EXPECT (R288). -/
def feedDiffers (m : Mem) (feed : Nat) : Bool :=
  match sect m 8 with
  | some x => bitsN (imgWord m x.off) 8 1 = 1 && bitsN (imgWord m x.off) 0 4 ≠ feed
  | none => false

/-- The cause of the first check of steps 1 to 6 that fails, 0 where none does (R289): with the room for the image, the
security version and the FEED_ID pins. -/
def imageCause (m : Mem) (area secver feed : Nat) : Nat :=
  if !headerOk m area then 3
  else if !tableOk m then 4
  else if !chainOk m then 5
  else if !digestsOk m then 7
  else if !signatureOk m then 6
  else if hdrSecver m < secver then 8
  else if !rangesOk m then 14
  else if !feedOk m then 4
  else if feedDiffers m feed then 9
  else 0

/-- Does the status sector mark this image rejected (R293)? -/
def markedRejected (m : Mem) : Bool :=
  imgLe m statusSector 4 = 1 && leNat (imgBytes m (statusSector + 8) 48) = imgDigest m

/-- All seven steps, on the device's bytes. -/
def flashCause (m : Mem) (secver feed : Nat) : Nat :=
  let c := imageCause m 67108864 secver feed
  if c ≠ 0 then c else if markedRejected m then 10 else 0

/-! ## Measurements of an image (Table 20.4) -/

/-- Indexes 2 to 5 and 17 to 25, with the security version and LOCK_SPLIT; bytes as little-endian numbers. -/
def imageMeasures (m : Mem) (secver : Nat) (split : Bool) : Tab Nat :=
  let i := imgLe m (hdrSigOff m + 96) 2
  [(2, Config.sha384 (chainAt m 0 (hdrChainLen m))), (3, imgDigest m),
   (4, hdrSecver m + 256 * secver + (if split then 65536 else 0)),
   (5, i + 65536 * Config.sha384 (chainAt m (certAt i) 97))]
    ++ (List.range 9).filterMap fun k => (sect m (k + 1)).map fun x => (17 + k, Config.sha384 (imgBytes m x.off x.len))

/-! ## Verification (R257, R282, R289, R291) -/

/-- The image fails: VERDICT 3 with the cause, IMAGE_SIG_FAIL (R257, R282). -/
def State.imageFails (s : State) (k : Side) (cause : Nat) : State :=
  (s.modKs k fun x => { x with verdict := 3, cause := cause, sect := 0 }).sigFail k cause 0

/-- The image is verified. After the election it makes PEER 1 and, before service, clears DEGR_KS (Table 12.1). -/
def State.imagePasses (s : State) (k : Side) : State :=
  let s := s.modKs k fun x =>
    { x with verdict := 2, cause := 0, img := x.flash.filter fun c => c.1 < hdrLen x.flash, imgLen := hdrLen x.flash }
  let s := s.modMgmt fun m => { m with firstOkAt := some (m.firstOkAt.getD s.time) }
  if s.mgmt.elected && !s.mgmt.recovery && k ≠ s.mgmt.active && !(s.ks k).lostRole && !s.inService then
    s.modMgmt fun m => { m with peer := true, degrKs := false }
  else s

/-- A Keystone finishes verifying its image (R289, R412). -/
def execImageVerify (k : Side) (s : State) : Out :=
  let x := s.ks k
  if x.verdict ≠ 1 || !x.present then .next s
  else if x.lockVer.isNone then .next (s.imageFails k 2)
  else
    let s := if headerOk x.flash 67108864 && tableOk x.flash then
        s.modKs k fun x => { x with secver := hdrSecver x.flash } else s
    let s := s.modSgr fun g => { g with rootOk := g.rootOk || (headerOk x.flash 67108864 && tableOk x.flash && chainOk x.flash) }
    let c := flashCause x.flash s.sgr.secverDev s.mgmt.feedId
    .next (if c = 0 then s.imagePasses k else s.imageFails k c)

/-- A replacement fails (R295). One that fails after its image has been programmed leaves no image that passes R289: the
blocks it covers are erased (log 23). -/
def State.rcvFail (s : State) (k : Side) (cause : Nat) : State :=
  let now := s.time
  (s.modKs k fun x =>
    { x with rcv := { x.rcv with phase := .failed, cause := cause, progress := x.rcv.elapsed now }
             flash := if x.rcv.phase = .readback then eraseFlash x.flash 0 (65536 * ceilDiv x.rcv.len 65536)
               else x.flash }).sigFail k cause 0

/-- How long a read command may take: 1 µs in 8D-8D-8D, 100 µs in 1S-1S-1S (R282). -/
def readLimit (k : Side) : Nat := if Config.octal (sideBit k) then Config.us 1 else Config.us 100

/-- A read command has timed out. A timeout that comes later than a retry may take is that of another command, with two
retries of its own; none where the second retry has failed (R282). -/
def Keystone.retried (x : Keystone) (limit now : Nat) : Option Keystone :=
  let n := if now ≤ x.triedAt + limit then x.tries else 0
  if n < 2 then some { x with tries := n + 1, triedAt := now } else none

/-- The flash does not answer: no SFDP header within 10 ms, cause 1; a read command is retried twice, then cause 2. So fails
an image that is read for its verification, and a replacement that reads it back (R282, R295). -/
def execFlashReadTimeout (k : Side) (sfdp : Bool) (s : State) : Out :=
  let x := s.ks k
  let rom : Bool := x.verdict = 1
  if !rom && x.rcv.phase ≠ .readback then .next s
  else
    let fail := fun (c : Nat) => if rom then s.imageFails k c else s.rcvFail k c
    let began := if rom then s.mgmt.romAt else x.rcv.since
    if sfdp then .next (if began + Config.ms 10 ≤ s.time then fail 1 else s)
    else match x.retried (readLimit k) s.time with
      | some y => .next (s.modKs k fun _ => y)
      | none => .next (fail 2)

/-- A Keystone abandons its image 8 s after ROM entry (R256). -/
def execImageAbandon (k : Side) (s : State) : Out :=
  if (s.ks k).verdict = 1 && s.mgmt.romAt + Config.sec 8 ≤ s.time then .next (s.imageFails k 11) else .next s

/-- The erase and program of the rejection record end, or reach 2 s; without the record the failure is logged with cause
18. The role then passes, or the engine enters SAFE (R292, R293). -/
def execRejectionRecordWritten (ok : Bool) (s : State) : Out :=
  let k := s.mgmt.active
  let x := s.ks k
  match x.rejecting with
  | none => .next s
  | some a =>
    let s := if ok && s.time ≤ a + Config.sec 2 then
        let r := mPutBytes erased (eraseFlash x.flash statusSector 65536) statusSector
          (rejectionRecord x.cause x.sect (imgDigest x.img))
        s.modKs k fun x => { x with rejecting := none, flash := r }
      else (s.modKs k fun x => { x with rejecting := none }).sigFail k 18 0
    .next (s.loseActive .bisque 3)

end Sys2Proof.Machine
end

