-- ==== Sys2Proof/Machine/BringUp.lean ====
section
/-! DEFINITION. Start-up from input power to GLOST: rails, ROM, election, root, field power, self-test, link measurement,
live map (R15, R28, R254 to R272, R278, R327, R388, R436 to R440; Tables 12.2 and 12.3). -/

namespace Sys2Proof.Machine

/-! ## Cold reset (R28, R31, R388) -/

/-- What a cold reset leaves of a Keystone: its flash device. -/
def Keystone.coldReset (k : Keystone) : Keystone :=
  { flash := k.flash, present := k.present, lock := k.lock, lockOk := k.lockOk }

/-- Every domain returns to state OFF. The flash devices, the factory map, the level of RESET_N and the supply stay, and
the model's own clock, free values and queue (R28, R31); a coolant pin reads high until COOLANT_LOSS (log 60). -/
def State.coldReset (s : State) : State :=
  { pending := s.pending
    time := s.time
    freeCtr := s.freeCtr
    south := s.south.coldReset
    north := s.north.coldReset
    map := { factory := s.map.factory, recs := s.map.factory, usable := mapUsable s.map.factory }
    mgmt := { standby := s.mgmt.standby, resetN := s.mgmt.resetN }
    routes := { recs := s.map.factory }
    ports := s.ports.map fun e => (e.1, { perst := e.2.perst }) }

/-- 0.75 V, and trips above 720 A for 10 µs, above 0.90 V for 1 µs and below 0.55 V for 50 µs (R302). -/
def regConfig : RegCfg := ⟨750, 720000, 10000, 900, 1000, 550, 50000⟩

/-- The engine latches ENGINE_SLOT and FEED_ID, brings up the management rails and configures the regulator groups (R15, R257,
R302, R388). -/
def State.powerOn (s : State) (slot : BitVec 8) (feed : BitVec 4) : State :=
  let s := s.modMgmt fun m =>
    { m with slotValid := true, engId := slot.toNat, feedId := feed.toNat, rails := .ramping s.time false, step := 1 }
  s.modKiln fun k => { k with feedA := true, feedB := true, reg := some regConfig }

/-- Both feed groups have reached 54 V: the standby rail is up, and with RESET_N high the management rails follow
(R257, R439). -/
def execInputValid (slot : BitVec 8) (feed : BitVec 4) (s : State) : Out :=
  if s.mgmt.standby then .next s
  else
    let s := s.modMgmt fun m => { m with standby := true }
    .next (if s.mgmt.resetN then s.powerOn slot feed else s)

/-- The management rails are not stable after 500 ms: cycled once, then the engine stays in OFF (R256, Table 12.3). -/
def execMgmtRailsTimeout (s : State) : Out :=
  match s.mgmt.rails with
  | .ramping a cycled =>
    if s.mgmt.st ≠ .off || s.time < a + Config.ms 500 then .next s
    else .next (s.modMgmt fun m => { m with rails := if cycled then .dead else .ramping s.time true })
  | _ => .next s

/-! ## ROM (R257, R325, R411, R412, R440) -/

/-- The version that a lock area records: 1 plus the highest programmed bit position from 0 to 254 (R411). -/
def lockVersion (b : BitVec 256) : Nat :=
  match ((List.range 255).reverse.find? fun i => b.getLsbD i) with
  | some i => i + 1
  | none => 0

/-- A Keystone enters its mask ROM: it reads its lock area and starts on its image (R257, R412). -/
def Keystone.enterRom (k : Keystone) : Keystone :=
  { k with verdict := 1, lockVer := if k.present && k.lockOk then some (lockVersion k.lock) else none }

/-- A filtered coolant pin that reads low stops the engine (R317, R440). -/
def State.coolantStop (s : State) (cause : Nat) : State := (s.event 0x0603 3 cause).halt

/-- The management clocks are judged stable: ROM, both Keystones at work; a low coolant pin leads to HALTED at once
(R255, R257, R339). -/
def execRomEntry (s : State) : Out :=
  match s.mgmt.st, s.mgmt.rails with
  | .off, .ramping .. =>
    let s := s.modMgmt fun m => { m with st := .rom, rails := .on, romAt := s.time, step := 2 }
    let s := (s.modKs .south Keystone.enterRom).modKs .north Keystone.enterRom
    let v := max (s.south.lockVer.getD 0) (s.north.lockVer.getD 0)
    let split : Bool := match s.south.lockVer, s.north.lockVer with
      | some a, some b => a ≠ b
      | _, _ => false
    let s := s.modSgr fun g => { g with secverDev := v, lockSplit := split, idOk := Config.identity s.freeCtr }
    let s := { s.modClk fun c => { c with master := 0, running := true } with freeCtr := s.freeCtr + 1 }
    .next (if s.mgmt.coolantA && s.mgmt.coolantB then s else s.coolantStop 1)
  | _, _ => .next s

/-- Has the Keystone finished with its image? -/
def Keystone.finished (k : Keystone) : Bool := k.verdict = 2 || k.verdict = 3

/-- The election closes when both have finished or 2 s after the first success: south before north; with no image verified
RECOVERY is set. The PCIe Pier rails are powered (R258, R259). -/
def execElectionClose (s : State) : Out :=
  let due : Bool := (s.south.finished && s.north.finished) || (match s.mgmt.firstOkAt with
    | some a => a + Config.sec 2 ≤ s.time
    | none => false)
  if s.mgmt.st ≠ .rom || s.mgmt.elected || !due then .next s
  else
    let so := s.south.verdict = 2
    let no := s.north.verdict = 2
    let s := s.modMgmt fun m => { m with elected := true, electedAt := s.time, pcieRails := true }
    if !so && !no then .next (s.modMgmt fun m => { m with recovery := true })
    else
      let k : Side := if so then .south else .north
      let s := s.modSgr fun g =>
        { g with aliasOk := g.idOk, meas := imageMeasures (s.ks k).img g.secverDev g.lockSplit }
      .next ((s.modMgmt fun m => { m with active := k, peer := so && no, degrKs := !(so && no) }).loadFirmware k)

/-- RECOVERY is 1 and no PCIe port has trained 10 s after ROM entry: SAFE with SAFE_CAUSE 5 (R259). -/
def execRecoveryTimeout (s : State) : Out :=
  if s.mgmt.st = .rom && s.mgmt.recovery && s.mgmt.romAt + Config.sec 10 ≤ s.time
      && !(List.range 4).any (fun h => (s.port h).trained) then .next (s.enterSafe 5)
  else .next s

/-! ## Measuring frequency (R337) -/

/-- A measurement: over `n` cycles of the reference, 1,024 to 16,777,216, the target's edges, held at 32 bits. -/
def Keystone.measure (x : Keystone) (ref target n count : Nat) : Keystone :=
  if 1024 ≤ n && n ≤ 16777216 then
    { x with counter := ⟨ref, target, n, BitVec.ofNat 32 (min 0xFFFFFFFF count), decide (0xFFFFFFFF < count)⟩ }
  else x

/-- Clock code of the root's REFCLK (Table 15.5). -/
def State.rootCode (s : State) : Nat := 0x10 + 8 * sideBit s.clk.edge + s.clk.fx

/-- The active Keystone measures a clock of Table 15.5 over 1,048,576 cycles: ck_mgmt against the root's REFCLK, any other
against ck_mgmt (R338). -/
def State.measure (s : State) (code count : Nat) : State :=
  s.modKs s.mgmt.active (·.measure (if code = 0 then s.rootCode else 0) code 1048576 count)

/-- Has a stretch or a switching gap reached the field whose ck_core is measured, within the window of 2.097152 ms? The result
is then discarded (R337). -/
def State.disturbed (s : State) (code : Nat) : Bool :=
  let within := fun (t : Option Nat) => match t with
    | some a => decide (s.time < a + Config.ns 2097152)
    | none => false
  0x20 ≤ code && code < 0x50
    && ((s.field (code - 0x20)).stretch ≠ 0 || within (s.field (code - 0x20)).lastStretch || within s.kiln.lastChange)

/-! ## The clock root (R260, R327) -/

/-- Is a count of REFCLK within ±200 ppm of 209,715? -/
def refOk (c : Nat) : Bool := ((c : Int) - 209715).natAbs * 1000000 ≤ 200 * 209715

/-- The PLL elected: the qualified count nearest 209,715, the lower fx on a tie (R327). -/
def electRoot (counts : List (Option Nat)) : Option Nat :=
  let cs := (List.range 8).filterMap fun i => match counts[i]? with
    | some (some c) => if refOk c then some (i, ((c : Int) - 209715).natAbs) else none
    | _ => none
  (cs.foldl (fun b e => match b with | none => some e | some d => if e.2 < d.2 then some e else some d) none).map (·.1)

/-- The root field: on the active Keystone's edge, in the root's column (R260). -/
def State.rootField (s : State) : Nat := if s.clk.edge = .south then s.clk.fx else 40 + s.clk.fx

/-- Is a root still to be elected? -/
def State.rootDue (s : State) : Bool :=
  (s.mgmt.st = .rom || s.mgmt.st = .bisque) && s.mgmt.elected && !s.mgmt.recovery && !s.clk.valid
    && (s.ks s.mgmt.active).rejecting.isNone

/-- The active Keystone elects the root among the locked PLLs of its edge: BISQUE. A Kiln that can power no field leads to
SAFE with SAFE_CAUSE 1 (R260, R327). -/
def execRootElection (counts : List (Option Nat)) (s : State) : Out :=
  if !s.rootDue then .next s
  else if !s.kiln.feedA && !s.kiln.feedB then .next (s.enterSafe 1)
  else match electRoot counts with
    | none => .next s
    | some fx =>
      let code := fun (i : Nat) => 0x10 + 8 * sideBit s.mgmt.active + i
      let s := (List.range 8).foldl (fun s i => match counts.getD i none with
        | some c => s.measure (code i) c
        | none => s) s
      let s := s.modClk fun c => { c with valid := true, edge := s.mgmt.active, fx := fx, core := false }
      .next (s.modMgmt fun m => { m with st := .bisque, step := 3, bisqueAt := s.time })

/-- No PLL of the edge qualifies within 100 ms: ROOT_LOST; the role passes, or SAFE with SAFE_CAUSE 2 (R260). -/
def execRootQualifyTimeout (s : State) : Out :=
  if !s.rootDue || s.time < s.mgmt.electedAt + Config.ms 100 then .next s
  else .next ((s.event 0x0703 2 (0x10 + 8 * sideBit s.mgmt.active)).loseActive s.mgmt.st 2)

/-! ## Field power (R262 to R264) -/

/-- The wave number of a field (R262). -/
def State.wave (s : State) (f : Nat) : Nat :=
  let y := if s.clk.edge = .south then 0 else 5
  ((fieldX f : Int) - (s.clk.fx : Int)).natAbs + ((fieldY f : Int) - (y : Int)).natAbs

/-- The neighbour fields across a seam: south, west, east, north. -/
def fieldNbrs (f : Nat) : List Nat :=
  (if 8 ≤ f then [f - 8] else []) ++ (if 0 < fieldX f then [f - 1] else [])
    ++ (if fieldX f < 7 then [f + 1] else []) ++ (if f + 8 < Config.nFields then [f + 8] else [])

def State.factoryField (s : State) (f : Nat) : Bool :=
  s.map.factory.any fun r => match r with | .field g _ _ => g = f | _ => false

def State.qualified (s : State) (f : Nat) : Bool := (s.field f).stage = .qualified
def FieldStage.isRamping : FieldStage → Bool
  | .ramping _ => true
  | _ => false

/-- May the field still be powered? -/
def State.unpowered (s : State) (f : Nat) : Bool :=
  (s.field f).stage = .unpowered && !s.factoryField f && !(s.field f).tripped

/-- The parents of a field that have qualified, the one nearer the edge first (R262). -/
def State.parents (s : State) (f : Nat) : List Nat :=
  let ps := (fieldNbrs f).filter fun g => s.wave g + 1 = s.wave f && s.qualified g
  let edge := if s.clk.edge = .south then 0 else 5
  let near := fun g => ((fieldY g : Int) - (edge : Int)).natAbs
  ps.filter (fun g => near g < near f) ++ ps.filter fun g => !(near g < near f)

/-- May the field have its rail-on command by its parents? -/
def State.eligible (s : State) (f : Nat) : Bool :=
  s.unpowered f && (f = s.rootField || !(s.parents f).isEmpty)

/-- No field ramps and none can be powered by its parents: fields beside a qualified one are tried once more (R264). -/
def State.retryField (s : State) (f : Nat) : Bool :=
  s.unpowered f && (fieldNbrs f).any s.qualified
    && (List.range Config.nFields).all fun g => !(s.field g).stage.isRamping && !s.eligible g

/-- Is every field qualified or listed, or barred by the factory map? -/
def State.fieldsSettled (s : State) : Bool :=
  (List.range Config.nFields).all fun f =>
    s.factoryField f || (match (s.field f).stage with | .qualified => true | .listed _ => true | _ => false)

/-- FIELD_UNQUALIFIED for a field listed with a cause (R263, R264). -/
def State.listField (s : State) (f cause : Nat) : State :=
  (s.modField f fun x => { x.off with stage := .listed cause }).event 0x0803 2 f (some f)

/-- When no field ramps and none can be tried, the fields still unpowered are listed with CAUSE 2 (R264). -/
def State.listRest (s : State) : State :=
  let left := (List.range Config.nFields).filter s.unpowered
  if (List.range Config.nFields).any (fun f => (s.field f).stage.isRamping) || left.any (fun f => s.eligible f || s.retryField f)
  then s else left.foldl (fun s f => s.listField f 2) s

def onField (f : Nat) (s : State) (g : State → Out) : Out := if f < Config.nFields then g s else .fault .noSuchUnit

/-- The Kiln gives a field its rail-on command: in wave order, at most 8 ramping (R262, R264, R280). -/
def execFieldRailOn (f : Nat) (s : State) : Out :=
  onField f s fun s =>
    let before := fun g => s.wave g < s.wave f || (s.wave g = s.wave f && g < f)
    let first := s.eligible f && (List.range Config.nFields).all fun g => !(s.eligible g && before g)
    let n := ((List.range Config.nFields).filter fun g => (s.field g).stage.isRamping).length
    if s.mgmt.st ≠ .bisque || !s.clk.valid || s.mgmt.windowAt.isSome || 8 ≤ n
        || (s.ks s.mgmt.active).rejecting.isSome || !(first || s.retryField f)
        || !(if fieldFeedB f then s.kiln.feedB else s.kiln.feedA) then .next s
    else
      let parent := if f = s.rootField then none else match s.parents f with
        | g :: _ => some g
        | [] => (fieldNbrs f).find? s.qualified
      let s := s.modField f fun x =>
        { x with stage := .ramping s.time, railOff := false, parent := parent, good := 0, selfTested := false, tests := [] }
      .next (s.modMgmt fun m => { m with wave := max m.wave (s.wave f), step := max m.step 3 })

/-- Is a measured ck_core count within ±0.1 % of F0's 2,621,440 (R263, Table 15.5)? -/
def coreOk (c : Nat) : Bool := ((c : Int) - 2621440).natAbs * 1000 ≤ 2621440

/-- The field's fabric, tiles and counters after a field fabric reset (R28, R38, R427). -/
def State.fabricReset (s : State) (f : Nat) : State :=
  (s.clearField f).modField f fun x => { x with resetAt := s.now }

/-- A field meets its four conditions within 20 ms, and its tiles begin self-test (R263, R265). -/
def execFieldQualify (f : Nat) (clk : Nat) (s : State) : Out :=
  onField f s fun s =>
    match (s.field f).stage with
    | .ramping a =>
      if s.time ≤ a + Config.ms 20 && 3 ≤ (s.field f).good && coreOk clk && !(s.field f).tripped && !s.disturbed (0x20 + f) then
        let s := ((s.measure (0x20 + f) clk).fabricReset f).modField f fun x => { x with stage := .qualified, qualAt := s.time, copy := s.clk.master * 65536 }
        .next ((s.modMgmt fun m => { m with step := max m.step 4 }).listRest)
      else .next s
    | _ => .next s

/-- A field has not qualified within 20 ms: rail off, CAUSE 0, FIELD_UNQUALIFIED (R263). -/
def execFieldQualifyTimeout (f : Nat) (s : State) : Out :=
  onField f s fun s =>
    match (s.field f).stage with
    | .ramping a => if a + Config.ms 20 ≤ s.time then .next (s.listField f 0).listRest else .next s
    | _ => .next s

/-! ## Self-test (R265) -/

/-- The tiles of a field. -/
def fieldTiles (f : Nat) : List Nat :=
  ((List.range 192).map fun y => (List.range 128).map fun x => tileId (fieldX f * 128 + x) (fieldY f * 192 + y)).flatten

/-- The tiles of a field that the factory map does not list. -/
def State.testTiles (s : State) (f : Nat) : List Nat := (fieldTiles f).filter fun t => !listedIn s.map.factory t

/-- A tile reports its self-test, once; with the last report its field has finished. -/
def execSelfTestReport (t : Nat) (logicOk banksOk : Bool) (s : State) : Out :=
  onTile t s fun s =>
    let f := fieldOf t
    let x := s.field f
    if x.stage ≠ .qualified || x.selfTested || listedIn s.map.factory t || x.tests.any (·.1 = t) then .next s
    else
      let tests := x.tests ++ [(t, logicOk, banksOk)]
      .next (s.modField f fun x => { x with tests := tests, selfTested := tests.length = (s.testTiles f).length })

/-- 500 ms after the field qualified, a tile that has not reported is listed with CAUSE 0. -/
def execSelfTestTimeout (f : Nat) (s : State) : Out :=
  onField f s fun s =>
    let x := s.field f
    if x.stage = .qualified && !x.selfTested && x.qualAt + Config.ms 500 ≤ s.time then
      .next (s.modField f fun x => { x with selfTested := true })
    else .next s

/-- The tile records that self-test gives a field: CAUSE 0 for logic or no report, 1 for a bank. -/
def State.testRecords (s : State) (f : Nat) : List MapRec :=
  (s.testTiles f).filterMap fun t => match (s.field f).tests.find? (·.1 = t) with
    | some (_, true, true) => none
    | some (_, true, false) => some (.tile t 1 1)
    | _ => some (.tile t 1 0)

/-! ## Link measurement and the live map (R266 to R270) -/

/-- Cycles of the measurement window (R267). -/
def linkWindow : Nat := 39062500000

/-- Link measurement starts on every link; every Pier rail is powered (R266). -/
def execLinkMeasureStart (s : State) : Out :=
  if s.mgmt.st = .bisque && s.mgmt.windowAt.isNone && s.fieldsSettled
      && (List.range Config.nFields).all fun f => !s.qualified f || (s.field f).selfTested then
    let s := { s with fields := s.fields.map fun (e : Nat × Field) => (e.1, { e.2 with measAt := s.now - e.2.resetAt }) }
    .next (s.modMgmt fun m => { m with windowAt := some s.now, step := 5, vdtRails := true, linkProg := 0 })
  else .next s

def FieldStage.record (f : Nat) : FieldStage → Option MapRec
  | .listed c => some (.field f 1 c)
  | _ => none

/-- Steps 1 to 5 of R268, and the tiles that need more than 32 detour entries (R269): the records with PHASE 1. -/
def State.bisqueRecords (s : State) (errs : List LinkCount) (overfull : List Nat) : List MapRec :=
  let fs := (List.range Config.nFields).filterMap fun f => (s.field f).stage.record f
  let ts := (((List.range Config.nFields).filter s.qualified).map s.testRecords).flatten
  let dead := (errs.filter fun e => 11 ≤ e.there || 11 ≤ e.back).map fun e =>
    let l := if e.outward then (e.tile, 2) else linkOf e.tile e.dir
    MapRec.link l.1 l.2 1
  let l := mapNorm (s.map.factory ++ fs ++ ts ++ dead)
  let reach := reachable l s.mgmt.active
  let alone := (List.range Config.nTiles).filter fun t => !listedIn l t && !reach.contains t
  fs ++ ts ++ alone.map (fun t => .tile t 1 2) ++ overfull.map (fun t => .tile t 1 5) ++ dead

/-- The window of a field is over: a cycle stretched by droop has counted as one (R267). -/
def Field.measured (x : Field) (now : Nat) : Bool := x.measAt + linkWindow ≤ now - x.resetAt

/-- The tiles whose routers would need more than 32 detour entries (R269). -/
def overfullIn (routes : List (Nat × RouterCfg)) : List Nat :=
  routes.filterMap fun e => match e.2 with
    | .tables l _ => if 32 < l.length then some e.1 else none
    | .bisque _ l _ => if 32 < l.length then some e.1 else none
    | _ => none

/-- The live map at the end of the window, and the routers as the Keystone then writes them, with route epoch 0 (R268,
R269). -/
def State.mapWritten (s : State) (errs : List LinkCount) (overfull : List Nat) (routes : List (Nat × RouterCfg)) : State :=
  let full := overfullIn routes
  let s := s.addRecords 1 (s.bisqueRecords errs (overfull ++ full))
  (routes.filter fun e => !full.contains e.1).foldl (fun s e => s.routerConfig e.1 e.2)
    { s with routes := { recs := s.map.recs } }

/-- The window ends in every qualified field: the Keystone builds the live map, and writes link-state bits, tables and masks
within the bounds of R445 and R269; it writes no others. -/
def execLinkWindowEnd (errs : List LinkCount) (overfull : List Nat) (routes : List (Nat × RouterCfg)) (s : State) : Out :=
  match s.mgmt.windowAt with
  | none => .next s
  | some a =>
    let u := s.mapWritten errs overfull routes
    if s.mgmt.mapAt.isSome || s.mgmt.st ≠ .bisque || s.now < a + linkWindow
        || (List.range Config.nFields).any (fun f => s.qualified f && !(s.field f).measured s.now) then .next s
    else if !(u.routesHold && u.castsHold) then .next s
    else .next (u.modMgmt fun m => { m with mapAt := some s.time, step := 6, linkProg := 4095 })

/-- Map and tables are not written within 30 s: SAFE with SAFE_CAUSE 3 (Table 12.3). -/
def execMapTimeout (s : State) : Out :=
  match s.mgmt.mapAt with
  | some a => if s.mgmt.st = .bisque && a + Config.sec 30 ≤ s.time then .next (s.enterSafe 3) else .next s
  | none => .next s

/-! ## Into GLOST (R270, R272, R277, R289) -/

/-- The landing of a directory entry passes R272: within its DEST and outside the record area. -/
def DirEntry.landOk (e : DirEntry) : Bool :=
  let last := e.loff + e.len - 1
  match e.dest with
  | 0 => last ≤ 0xFFFF && (last < 0xFA00 || 0xFEFF < e.loff)
  | 1 => last ≤ 0x1FFF
  | 2 => last ≤ 0xFF
  | _ => false

def DirEntry.rectOk (e : DirEntry) : Bool := e.x0 ≤ e.x1 && e.y0 ≤ e.y1 && e.x1 < Config.cols && e.y1 < Config.rows

/-- Two entries that reach a tile in common overlap in the same DEST. -/
def DirEntry.clash (a b : DirEntry) : Bool :=
  a.dest = b.dest && a.x0 ≤ b.x1 && b.x0 ≤ a.x1 && a.y0 ≤ b.y1 && b.y0 ≤ a.y1
    && overlaps a.loff (a.loff + a.len - 1) b.loff (b.loff + b.len - 1)

def noClash : List DirEntry → Bool
  | [] => true
  | e :: l => !l.any e.clash && noClash l

/-- The Glost directory passes R272 on the live map. -/
def State.directoryOk (s : State) : Bool :=
  let ds := directory s.image
  ds.all (fun e => e.reservedOk && e.rectOk && e.landOk) && noClash ds
    && (List.range Config.nTiles).all fun t => !s.usable t || (ds.filter fun e => e.holds t).length ≤ 20

/-- The first section whose content the firmware rejects (R289, R304, R345, R366, R394). -/
def State.badSection (s : State) : Option Nat :=
  let m := s.image
  if !policyOk m then some 4
  else if !hostSectOk m then some 5
  else if !peersOk m s.mgmt.engId s.mgmt.slotValid then some 6
  else if !parityOk m s.mgmt.engId then some 7
  else none

/-- A request for a step: the root's idle core begins to lock at it (R328). -/
def State.askStep (s : State) (n : Nat) : State :=
  (s.modKiln fun k => { k with pend := true, fpend := n, pendAt := s.time, lockAt := s.time }).modClk fun c =>
    { c with locking := n }

/-- The Kiln takes its policy from the image, and the steps from F0 to F_TOP begin (R303, R307, R311, R323). -/
def State.loadPolicy (s : State) : State :=
  let m := s.image
  let s := s.modKiln fun k =>
    { k with cap := polCap m, w0 := polW0 m, table := (seeds m).map fun e => ⟨e.1, (e.2.2 : Nat), 0⟩ }
  if s.kiln.fstep < polFtop m then s.askStep (s.kiln.fstep + 1) else s

/-- The Viaduct part takes the peer tables, and every cabled port starts training; one without a live attachment link is
FAILED (R19, R277, R360, R366). -/
def State.loadPeers (s : State) : State :=
  let m := s.image
  match sect m 6 with
  | none => s
  | some x =>
    let cab := peerCabled m
    let port := fun (p : Nat) => ({ state := if (s.live (.vdt p)).isEmpty then .failed else .training, trainAt := s.time,
                                    copy := s.clk.master * 65536 } : VdtPort)
    let cut := (List.range 32).any fun p => cab.getLsbD p && (s.live (.vdt p)).isEmpty
    let s := s.modMgmt fun g => { g with degrVdt := g.degrVdt || cut }
    { s with vdt := { present := true, selfId := imgByte m x.off, master := imgByte m (x.off + 1),
                      backup := imgByte m (x.off + 2), cabled := cab, peers := tOf (peerEntries m),
                      ports := tOf (((List.range 32).filter fun p => cab.getLsbD p).map fun p => (p, port p))
                      outOf := ((peerEntries m).map fun e =>
                        (List.range e.2.pairs.length).map fun i => (e.1, i)).flatten } }

/-- The parity groups of the image (R394); the snapshots that have fallen due by then are not taken. -/
def State.loadGroups (s : State) : State :=
  let m := s.image
  s.modCkpt fun c => { c with groups := parGroups m, lastDue := s.clk.master / 1000000000 / parInterval m }

/-- Every controller has acknowledged: the counts of records added are raised, and the engine enters GLOST, unless the
smallest working set is absent (SAFE_CAUSE 3 where the reachable region is empty) or the active Keystone rejects its image (R269, R270, R272, R278, R289). -/
def execBisqueEnd (s : State) : Out :=
  if s.mgmt.st ≠ .bisque || s.mgmt.mapAt.isNone || (s.ks s.mgmt.active).rejecting.isSome then .next s
  else
    let nt := (s.map.recs.filter fun r => match r with | .tile _ 1 _ => true | _ => false).length
    let nl := (s.map.recs.filter fun r => match r with | .link _ _ 1 => true | _ => false).length
    let s := if nt = 0 then s else s.event 0x0804 2 nt
    let s := if nl = 0 then s else s.event 0x0504 2 nl
    match s.absent false with
    | some c => .next (s.enterSafe c)
    | none =>
      let s := s.modMgmt fun m => { m with st := .glost, step := 7, glostAt := s.time }
      if !s.directoryOk then .next (s.rejectImage 13 0)
      else match s.badSection with
        | some k => .next (s.rejectImage 15 k)
        | none => .next s.loadPolicy.loadPeers.loadGroups

end Sys2Proof.Machine
end

