-- ==== Sys2Proof/Machine/Viaduct.lean ====
section
/-! DEFINITION. Viaduct ports: lane qualification, frames and replay, packets between engines, pairs in service, HELLO and
time exchange (R277, R359 to R375, R402). -/

namespace Sys2Proof

/-- A request: it is answered (Table 10.3). -/
def PktOp.isRequest : PktOp → Bool
  | .put | .get | .atomic | .signal | .send | .creditReq | .putReduce => true
  | _ => false

end Sys2Proof

namespace Sys2Proof.Machine

def onVport (p : Nat) (s : State) (f : State → Out) : Out := if p < 32 then f s else .fault .noSuchUnit

def VdtState.runs : VdtState → Bool
  | .up | .degraded => true
  | _ => false

def State.modFirstTile (s : State) (p : Nat) (f : Tile → Tile) : State :=
  match (Block.vdt p).tiles with
  | t :: _ => s.modTile t f
  | [] => s

/-! ## Pairs (R367, R370, R371) -/

/-- The pairs of every peer: engine, index, LPORT, RPORT. -/
def State.allPairs (s : State) : List (Nat × Nat × Nat × Nat) :=
  (s.vdt.peers.map fun e => (List.range e.2.pairs.length).filterMap fun i =>
    e.2.pairs[i]?.map fun q => (e.1, i, q.1, q.2)).flatten

/-- The pair as it will stand once the changes waiting and under way are made. -/
def State.pairOut (s : State) (e i : Nat) : Bool :=
  let later := ((s.routes.change.elim [] (·.pairs)) ++ s.vdt.change).filter fun c => c.1 = e && c.2.1 = i
  match later.getLast? with
  | some c => c.2.2
  | none => s.vdt.outOf.contains (e, i)

/-- A change of the set of pairs in service is due (R370). -/
def State.duePair (s : State) (e i : Nat) (out : Bool) : State :=
  if s.pairOut e i = out then s else s.modVdt fun v => { v with change := v.change ++ [(e, i, out)] }

/-- Every pair of a port goes out of service. -/
def State.pairsOut (s : State) (p : Nat) : State :=
  (s.allPairs.filter fun q => q.2.2.1 = p).foldl (fun s q => s.duePair q.1 q.2.1 true) s

/-! ## Parity operations that fail (R398, R401, R403) -/

def State.modGroup (s : State) (g : Nat) (f : Group → Group) : State :=
  s.modCkpt fun c => { c with groups := c.groups.modify g f }

/-- A group without stripes, pieces or ends. -/
def Group.cleared (g : Group) : Group :=
  { g with pn := 0, stripes := [], pieces := [], wrote := [], ends := [], opened := none }

/-- A rebuild ends: PARITY_REBUILD with the result (R403). -/
def State.rebuildEnds (s : State) (g : Nat) (ok : Bool) : State :=
  match s.ckpt.groups[g]? with
  | none => s
  | some x =>
    if !x.rebuilding then s else
    (s.modGroup g fun x => { x.cleared with rebuilding := false, asked := [], reqs := [] }).event 0x0903 2
      (x.rsnap + 0x10000 + if ok then 0x20000 else 0)

/-- Operation `id` of a parity flow has failed: the flow stops at its stripe; a rebuild request that fails ends the
rebuild. -/
def State.parityFails (s : State) (id : Nat) : State :=
  let stop := fun (st : ParFlow) => match st.out.find? (·.1 = id) with
    | some o => { st with failed := some (min o.2.1 (st.failed.getD o.2.1)) }
    | none => st
  let s := s.modCkpt fun c => { c with streams := c.streams.map stop }
  match s.ckpt.groups.findIdx? fun g => g.reqs.any (·.1 = id) with
  | some g => s.rebuildEnds g false
  | none => s

/-! ## Packets that cannot leave (R368, R371) -/

/-- A Pier answers a request of its own engine: each contributor of a PUT REDUCE, the sender of any other. -/
def State.vdtAnswer (s : State) (p : Nat) (k : Packet) (c : Code) : State :=
  let e := s.mgmt.engId
  let dsts := if k.op = .putReduce then (k.contribs.filter fun x => x.2 = e).map (·.1) else [k.srcTile]
  dsts.foldl (fun s t =>
    let u := (s.attachFor (.vdt p) t).getD 0
    s.edgeSend (.vdt p) t { respTo e u k t e c 0 with out := false }) s

/-- A packet the Pier cannot send: a request is answered, any other packet is discarded and counted. -/
def State.vdtSettle (s : State) (p : Nat) (k : Packet) (c : Code) : State :=
  if k.op = .parity then s.parityFails k.serial
  else if k.op.pierOnly then s
  else if k.op.isRequest then s.vdtAnswer p k c
  else s.modFirstTile p (·.count cAnsDisc 1)

/-! ## Placing packets in frames (R361, R362, R364, R365) -/

/-- RPORT of the pair by which a packet for engine `e` leaves port `p`. -/
def State.rportOf (s : State) (e p src : Nat) : Nat :=
  match s.pairFor e src with
  | some (lp, rp) => if lp = p then rp else ((s.allPairs.find? fun q => q.1 = e && q.2.2.1 = p).map (·.2.2.2)).getD 0
  | none => ((s.allPairs.find? fun q => q.1 = e && q.2.2.1 = p).map (·.2.2.2)).getD 0

/-- The packet as it crosses the link: the transaction word, and the tile it is for. -/
def State.stamp (s : State) (p : Nat) (k : Packet) : Packet :=
  let addressed := k.op.isRequest && k.op ≠ .creditReq
  { k with seng := s.vdt.selfId, dport := s.rportOf k.deng p k.srcTile, ret := false,
           dest := if addressed then addrTile k.addr else k.rdest, waypoint := 0, wpv := false, dcnt := 0 }

def VdtPort.credit (x : VdtPort) (k : Packet) : Bool := k.flits ≤ x.credits.getD k.vc 0

/-- The next packet to be placed: VC1 before VC2 before VC0, a channel that has waited 16 decisions first (R175, R364). -/
def VdtPort.choose (x : VdtPort) : Option (Packet × VdtPort) :=
  let ask := fun n => (firstOn (rankVc n) x.waiting).filter x.credit
  let ns := (List.range 3).filter fun n => (ask n).isSome
  match winner 16 (fun n => tGet 0 x.wait n) ns with
  | none => none
  | some n => (ask n).map fun k =>
    (k, { x with
      waiting := dropPacket k x.waiting
      credits := x.credits.set k.vc (x.credits.getD k.vc 0 - k.flits)
      wait := ns.foldl (fun w m => tSet 0 w m (if m = n then 0 else min 16 (tGet 0 w m + 1))) x.wait })

/-- Fill a frame of 19 slots with whole packets. -/
def VdtPort.fill : Nat → VdtPort → List Packet → VdtPort × List Packet
  | 0, x, ps => (x, ps)
  | n + 1, x, ps =>
    match x.choose with
    | none => (x, ps)
    | some (k, y) => if flitsIn (ps ++ [k]) ≤ 19 then y.fill n (ps ++ [k]) else (x, ps)

/-- A frame with this port's ACK and the credits it returns; a resent frame returns none. -/
def VdtPort.frame (x : VdtPort) (fseq : Nat) (nak : Bool) (ps : List Packet) (credits : List Nat) : Frame :=
  { fseq := fseq, ack := (x.expect + 4095) % 4096, nak := nak, slots := BitVec.ofNat 19 (2 ^ flitsIn ps - 1),
    credits := credits, fecOk := true, crcOk := true, packets := ps }

/-- Put a new frame on the link, and keep it until it is acknowledged. -/
def VdtPort.sendFrame (x : VdtPort) : VdtPort :=
  if 512 ≤ x.replay.length then x else
  let r := x.fill 19 []
  if r.2.isEmpty then x
  else
    { r.1 with out := r.1.out ++ [x.frame x.nextSeq false r.2 x.toReturn], replay := r.1.replay ++ [(x.nextSeq, r.2, 0)],
               nextSeq := (x.nextSeq + 1) % 4096, toReturn := [0, 0, 0] }

def VdtPort.sendAll (x : VdtPort) : VdtPort := (List.range x.waiting.length).foldl (fun y _ => y.sendFrame) x

/-- An empty frame: it repeats the last FSEQ and is not kept. -/
def VdtPort.sendEmpty (x : VdtPort) (nak : Bool) : VdtPort :=
  { x with out := x.out ++ [x.frame ((x.nextSeq + 4095) % 4096) nak [] x.toReturn], toReturn := [0, 0, 0] }

/-- Hand a packet to a port; one that is down settles it. -/
def State.vdtSend (s : State) (p : Nat) (k : Packet) : State :=
  if (s.vport p).state.runs then s.modVport p fun x => { x with waiting := x.waiting ++ [k] }.sendAll
  else s.vdtSettle p k .linkDown

/-! ## Parity flows (R400, R401) -/

/-- Stream `i` sends a packet through the pair that its stripe number selects (R367). -/
def State.streamPacket (s : State) (i : Nat) (k : Packet) (stripe piece : Nat) : State :=
  match s.ckpt.streams[i]? with
  | none => s
  | some st =>
    let id := s.ckpt.nextOp
    let s := s.modCkpt fun c =>
      { c with nextOp := id + 1
               streams := c.streams.modify i fun st => { st with out := st.out ++ [(id, stripe, piece, s.now)] } }
    match s.pairFor st.dest stripe with
    | none => s.parityFails id
    | some (lp, rp) => s.vdtSend lp { k with
        op := .parity, vc := 0, opid := id % 16, serial := id, deng := st.dest, seng := s.vdt.selfId, dport := rp, srcEng := s.vdt.selfId,
        srcKind := 2 }

/-- A piece: stripe in RUN, piece in GEN, GROUP_ID in QUEUE, INDEX in RID (words 6 and 7, R400). -/
def ParFlow.piece (st : ParFlow) (k j : Nat) : Packet :=
  { op := .parity, flits := 9, len := pieceLen, run := k, gen := j, queue := st.gid, rid := st.index,
    data := (st.data.drop (k * stripeLen + j * pieceLen)).take pieceLen }

/-- Every piece of the stripes from `k` on. -/
def State.streamFrom (s : State) (i k : Nat) : State :=
  match s.ckpt.streams[i]? with
  | none => s
  | some st =>
    (List.range (stripeCount st.len - k)).foldl (fun s a => (List.range stripePieces).foldl (fun s j =>
      s.streamPacket i (st.piece (k + a) j) (k + a) j) s) s

/-- The end of shard, with LEN (R400). -/
def State.streamEnd (s : State) (i : Nat) : State :=
  match s.ckpt.streams[i]? with
  | none => s
  | some st =>
    (s.modCkpt fun c => { c with streams := c.streams.modify i fun st => { st with ended := true } }).streamPacket i
      { op := .parity, sub := 1, old := BitVec.ofNat 64 st.len } (stripeCount st.len) 0

/-- A stream begins. -/
def State.startStream (s : State) (st : ParFlow) : State :=
  let i := s.ckpt.streams.length
  (s.modCkpt fun c => { c with streams := c.streams ++ [st] }).streamFrom i 0

/-- The end packet leaves after every piece has been answered OK; with its own answer the stream is complete. -/
def State.streamNext (s : State) (i : Nat) : State :=
  match s.ckpt.streams[i]? with
  | none => s
  | some st =>
    if !st.out.isEmpty || st.failed.isSome then s
    else if st.ended then s.modCkpt fun c => { c with streams := c.streams.eraseIdx i }
    else s.streamEnd i

/-- An answer to a parity packet. -/
def State.parityAnswered (s : State) (k : Packet) : State :=
  if k.code ≠ .ok then s.parityFails k.serial
  else
    let drop := fun (l : List (Nat × Nat × Nat × Nat)) => l.filter (·.1 ≠ k.serial)
    let hit := s.ckpt.streams.findIdx? fun st => st.out.any (·.1 = k.serial)
    let s := s.modCkpt fun c =>
      { c with streams := c.streams.map fun st => { st with out := drop st.out }
               groups := c.groups.map fun g => { g with reqs := g.reqs.filter (·.1 ≠ k.serial) } }
    match hit with
    | some i => s.streamNext i
    | none => s

/-- A stopped flow is resent from the first stripe that failed, once no pair change is outstanding. -/
def State.streamResend (s : State) (i : Nat) : State :=
  match s.ckpt.streams[i]? with
  | none => s
  | some st => match st.failed with
    | none => s
    | some k =>
      let s := s.modCkpt fun c => { c with streams := c.streams.modify i fun st =>
        { st with failed := none, resends := st.resends + 1, out := st.out.filter (·.2.1 < k), ended := false } }
      if k < stripeCount st.len then s.streamFrom i k else s.streamNext i

/-- What the sending Piers do with time: an operation unanswered for 67,108,864 cycles fails (R219); a stopped flow is
resent up to 3 times, and then parity is abandoned for the snapshot (R401). -/
def State.parityPump (s : State) : State :=
  let late := fun (a : Nat) => a + 67108864 ≤ s.now
  let old := (s.ckpt.streams.map fun st => (st.out.filter fun o => late o.2.2.2).map (·.1)).flatten
    ++ (s.ckpt.groups.map fun g => (g.reqs.filter fun r => late r.2).map (·.1)).flatten
  let s := old.foldl (fun s id => s.parityFails id) s
  let spent := fun (st : ParFlow) => st.failed.isSome && 3 ≤ st.resends
  let lost := (s.ckpt.streams.filter spent).map fun st => (st.gid, st.serve)
  let s := s.modCkpt fun c => { c with streams := c.streams.filter fun st => !lost.contains (st.gid, st.serve) }
  let waits := !s.vdt.change.isEmpty || (s.routes.change.any fun c => !c.pairs.isEmpty)
  if waits then s else (List.range s.ckpt.streams.length).foldl (fun s i => s.streamResend i) s

/-- An answer that leaves ends the wait on the request it answers (R370). -/
def Injected.endedBy (k : Packet) (i : Injected) : Bool :=
  (k.op = .resp || k.op = .getResp || k.op = .creditGrant) && i.target = k.srcTile && i.eng = k.deng && i.tile = k.rdest
    && i.opid = k.opid

def State.noteAnswer (s : State) (k : Packet) : State :=
  s.modVdt fun v => { v with ports := v.ports.map fun e =>
    (e.1, { e.2 with injected := e.2.injected.filter fun i => !i.endedBy k }) }

/-- The Pier takes what its attachment tiles have sent it. -/
def State.pierTake (s : State) (p : Nat) : State :=
  let b := Block.vdt p
  b.tiles.foldl (fun s u =>
    let ps := tGet [] (s.tile u).rtr.wire b.dir.port
    if ps.isEmpty then s else
    let s := s.modTile u (·.modRtr fun r => { r with wire := tDel r.wire b.dir.port })
    ps.foldl (fun s k => (s.noteAnswer k).vdtSend p (s.stamp p k)) s) s

/-- Every Viaduct Pier with power takes what waits for it. -/
def State.piersTake (s : State) : State :=
  s.vdt.ports.foldl (fun s e =>
    if s.mgmt.vdtRails && (if (Block.vdt e.1).feedB then s.kiln.feedB else s.kiln.feedA) then s.pierTake e.1 else s) s

/-! ## Ports down, failed and qualified (R277, R360, R363) -/

def State.linkFailed (s : State) (p : Nat) : State := s.event 0x0503 5 p (unit := p)

/-- Packets not yet placed in a frame are settled; kept frames are discarded (R363, R368). -/
def State.vdtDrop (s : State) (p : Nat) : State :=
  let ps := (s.vport p).waiting
  let s := s.modVport p fun x => { x with
    waiting := [], replay := [], nextSeq := 0, expect := 0, nakSent := false, credits := [256, 256, 256],
    toReturn := [0, 0, 0], wait := [], replayTimes := [], width := 0, used := 0 }
  (ps.foldl (fun s k => s.vdtSettle p k .linkDown) s).pairsOut p

/-- A port is FAILED until cold reset (R360, R363, R385). -/
def State.failVport (s : State) (p : Nat) : State :=
  if (s.vport p).state = .failed then s else
  let s := (s.modVport p fun x => { x with state := .failed, windowAt := none, retraining := false }).vdtDrop p
  ((s.linkFailed p).modMgmt fun m => { m with degrVdt := true }).reDegr.tryReady

/-- Ports whose Piers have lost their last live attachment link are FAILED (R19, R357). -/
def State.failCutOff (s : State) : State :=
  if s.mgmt.mapAt.isNone then s else
  let vs := (s.vdt.ports.filter fun e => e.2.state ≠ .unused && (s.live (.vdt e.1)).isEmpty).map (·.1)
  let s := vs.foldl (fun s p => s.failVport p) s
  let hs := (List.range 4).filter fun h => s.mgmt.glostDone && !s.pierLive h && (s.port h).state ≠ .failed
  hs.foldl (fun s h => ((s.portDown h).modPort h fun p => { p with state := .failed }).reDegr) s

/-- A port goes down in service and is retrained once (R363). -/
def State.vdtDown (s : State) (p : Nat) : State :=
  if !(s.vport p).state.runs then s else
  ((s.modVport p fun x => { x with state := .training, retraining := true, trainAt := s.time, windowAt := none }).vdtDrop
    p).linkFailed p

/-- Lane training ends, and the 100 ms window begins (R277). -/
def execViaductTrainingDone (p : Nat) (s : State) : Out :=
  onVport p s fun s =>
    let x := s.vport p
    if x.state = .training && x.windowAt.isNone && s.mgmt.vdtRails && s.time ≤ x.trainAt + Config.sec 10 then
      .next (s.modVport p fun x => { x with windowAt := some s.time })
    else .next s

/-- The lane groups of Table 17.1, widest and lowest first: width code and lanes. -/
def laneGroups : List (Nat × BitVec 16) :=
  [(3, 0xFFFF), (2, 0x00FF), (2, 0xFF00), (1, 0x000F), (1, 0x00F0), (1, 0x0F00), (1, 0xF000)]

/-- Lanes of a width code. -/
def lanesOf (w : Nat) : Nat := if w = 3 then 16 else if w = 2 then 8 else 4

/-- The window ends with the lanes that qualify in both directions (R277, R360). -/
def execQualifyWindowEnd (p : Nat) (lanes : BitVec 16) (s : State) : Out :=
  onVport p s fun s =>
    match (s.vport p).windowAt with
    | none => .next s
    | some a =>
      if (s.vport p).state ≠ .training || s.time < a + Config.ms 100 then .next s
      else
        let s := s.modVport p fun x => { x with qual := lanes, windowAt := none }
        match laneGroups.find? fun g => g.2 &&& lanes = g.2 with
        | none => .next (s.failVport p)
        | some (w, used) =>
          let s := s.modVport p fun x =>
            { x with state := if w = 3 then .up else .degraded, width := w, used := used, retraining := false }
          let s := if w = 3 then s else s.event 0x0502 5 (p + 256 * lanesOf w) (unit := p)
          -- a HELLO is due through every pair of the port (R371)
          let s := s.modVdt fun v => { v with helloAt := v.helloAt.filter fun e =>
            !(s.allPairs.any fun q => q.2.2.1 = p && 4 * q.1 + q.2.1 = e.1) }
          .next s.tryReady

/-- Training has not ended after 10 s (R277, R363). -/
def execTrainingTimeout (p : Nat) (s : State) : Out :=
  onVport p s fun s =>
    let x := s.vport p
    if x.state = .training && x.windowAt.isNone && x.trainAt + Config.sec 10 ≤ s.time then .next (s.failVport p)
    else .next s

/-! ## Receiving frames (R362) -/

/-- Drop the kept frames that an ACK covers. -/
def ackTo (ack : Nat) (l : List (Nat × List Packet × Nat)) : List (Nat × List Packet × Nat) :=
  match l.findIdx? (·.1 = ack) with
  | some i => l.drop (i + 1)
  | none => l

/-- Every kept frame is sent again, in order; each counts as a replay. -/
def State.resend (s : State) (p : Nat) : State :=
  let x := s.vport p
  let n := x.replay.length
  if n = 0 then s else
  let now := s.clk.master
  let told : Bool := match x.replayRaised with
    | some a => s.time < a + Config.sec 1
    | none => false
  let s := s.modVport p fun x =>
    { x with replay := x.replay.map fun r => (r.1, r.2.1, r.2.2 + 1)
             out := x.out ++ x.replay.map fun r => x.frame r.1 false r.2.1 [0, 0, 0]
             replays := satAdd 4095 x.replays n
             replayTimes := (x.replayTimes.filter fun a => now < a + 1000000000) ++ List.replicate n now
             replayRaised := if told then x.replayRaised else some s.time }
  if told then s else s.event 0x0501 5 p (unit := p)

/-- A discarded frame: NAK is sent once, until the expected frame arrives. -/
def VdtPort.discard (x : VdtPort) : VdtPort := if x.nakSent then x else { x.sendEmpty true with nakSent := true }

/-- A frame arrives (R362): discarded on a FEC, CRC or sequence error, else taken, with its ACK, NAK and credits. -/
def execViaductFrameReceive (p : Nat) (fr : Frame) (s : State) : Out :=
  onVport p s fun s =>
    let x := s.vport p
    if !x.state.runs then .next s
    else if !fr.fecOk then .next (s.modVport p fun x => { x with uncorr := satAdd 4095 x.uncorr 1 }.discard)
    else
      let isData : Bool := fr.slots ≠ 0
      let inOrder := if isData then fr.fseq = x.expect else (fr.fseq + 1) % 4096 = x.expect
      if !fr.crcOk || !inOrder then .next (s.modVport p VdtPort.discard)
      else
        let s := s.modVport p fun x =>
          { x with expect := if isData then (x.expect + 1) % 4096 else x.expect
                   nakSent := if isData then false else x.nakSent
                   received := if isData then x.received ++ fr.packets else x.received
                   replay := ackTo fr.ack x.replay
                   credits := (List.range 3).map fun v => x.credits.getD v 0 + fr.credits.getD v 0 }
        let s := if fr.nak then s.resend p else s
        .next (s.modVport p fun x => if isData then x.sendAll.sendEmpty false else x.sendAll)

/-- A frame has been resent 4 times without an acknowledgement: the port goes down (R363). -/
def execFrameResendLimit (p : Nat) (s : State) : Out :=
  onVport p s fun s => if (s.vport p).replay.any (fun r => 4 ≤ r.2.2) then .next (s.vdtDown p) else .next s

/-- More than 1,000 replays within one second of global time (R363). -/
def execReplayRateLimit (p : Nat) (s : State) : Out :=
  onVport p s fun s =>
    if 1000 < ((s.vport p).replayTimes.filter fun a => s.clk.master < a + 1000000000).length then .next (s.vdtDown p)
    else .next s

/-! ## Packets from the fabric (R369 to R371) -/

/-- Take a packet that is the first of its channel among those received; its flits free their credits. -/
def State.takeReceived (s : State) (p : Nat) (k : Packet) : Option State :=
  if firstOn k.vc (s.vport p).received = some k then
    some (s.modVport p fun x =>
      { x with received := dropPacket k x.received, toReturn := x.toReturn.set k.vc (x.toReturn.getD k.vc 0 + k.flits) })
  else none

/-- A packet that this port sends back to the engine a packet came from. -/
def State.sendBack (s : State) (p : Nat) (k r : Packet) : State :=
  s.vdtSend p { r with deng := k.seng, seng := s.vdt.selfId, dport := s.rportOf k.seng p r.srcTile }

/-- The tile a packet from the fabric is for: by ADDR for a request that has one, else by DEST. -/
def fabricTarget (k : Packet) : Nat := if k.op.isRequest && k.op ≠ .creditReq then addrTile k.addr else k.dest

/-- Must a packet for the tile wait for those injected under an older route epoch (R219, R370)? -/
def State.mustHold (s : State) (p t : Nat) : Bool :=
  (s.vport p).injected.any fun i => i.target = t && i.epoch ≠ s.routes.epoch && s.now < i.at_ + 67108864

/-- A packet of the mesh arrives from the fabric: DENG is checked, and it is injected for its tile (R369, R370). -/
def execViaductPacketReceive (p : Nat) (k : Packet) (s : State) : Out :=
  onVport p s fun s =>
    if k.ret || k.op.pierOnly then .next s
    else match s.takeReceived p k with
      | none => .next s
      | some s' =>
        if k.deng ≠ s.mgmt.engId then
          if k.op.isRequest then
            .next (if k.op = .putReduce then k.contribs.foldl (fun s c =>
                s.sendBack p { k with seng := c.2 } { respTo s.mgmt.engId 0 k c.1 c.2 .unreachable 0 with rdest := c.1 }) s'
              else s'.sendBack p k { respTo s.mgmt.engId 0 k k.srcTile k.srcEng .unreachable 0 with rdest := k.srcTile })
          else .next s'
        else if k.op = .resp && k.srcKind = 2 then .next (s'.parityAnswered k)
        else
          let t := fabricTarget k
          if s.mustHold p t then .next s
          else
            let s := s'.edgeSend (.vdt p) t { k with dest := t, out := false, waypoint := 0, wpv := false, dcnt := 0 }
            if !k.op.isRequest then .next s else
            let from_ := if k.op = .putReduce then k.contribs else [(k.srcTile, k.srcEng)]
            .next (s.modVport p fun x => { x with injected := x.injected ++ from_.map fun c =>
              ⟨t, c.2, c.1, k.opid, s.routes.epoch, s.now⟩ })

/-- The fabric returns a packet: a request is answered UNREACHABLE, any other packet of the mesh is discarded and counted;
the pair goes out of service (R371). -/
def execReturnedPacket (p : Nat) (k : Packet) (s : State) : Out :=
  onVport p s fun s =>
    if !k.ret then .next s
    else match s.takeReceived p k with
      | none => .next s
      | some s =>
        let s := s.vdtSettle p k .unreachable
        .next ((s.allPairs.filter fun q => q.1 = k.deng && q.2.2.1 = p && q.2.2.2 = k.dport).foldl
          (fun s q => s.duePair q.1 q.2.1 true) s)

/-- The Keystone marks the changed pairs; they change with the third step, when every router has acknowledged the new route
epoch (R210, R370). -/
def execPairChange (s : State) : Out :=
  if s.vdt.change.isEmpty || s.routes.change.isSome || s.mgmt.ksReset.isSome then .next s
  else
    .next { s with
      routes := { s.routes with change := some ⟨[], [], (s.routes.epoch + 1) % 4, s.vdt.change, s.map.recs⟩ }
      vdt := { s.vdt with change := [] } }

/-! ## HELLO (R371, R402) -/

def State.pair (s : State) (e i : Nat) : Option (Nat × Nat) :=
  match tGet? s.vdt.peers e with
  | some q => q.pairs[i]?
  | none => none

/-- A HELLO or HELLO_ACK: FEED_ID stands in word 6 [3:0], here in SUB (R402). -/
def State.helloPacket (s : State) (op : PktOp) (e rp : Nat) : Packet :=
  { op := op, vc := 1, deng := e, seng := s.vdt.selfId, dport := rp,
    sub := if s.mgmt.glostDone then BitVec.ofNat 4 s.mgmt.feedId else 0 }

/-- A Pier sends HELLO through pair `i` of engine `e`: after its port qualifies, then once per second while the pair is out
of service. -/
def execHello (e i : Nat) (s : State) : Out :=
  match s.pair e i with
  | none => .next s
  | some (lp, rp) =>
    let due : Bool := match tGet? s.vdt.helloAt (4 * e + i) with
      | none => true
      | some a => s.pairOut e i && a + Config.sec 1 ≤ s.time
    if !due || !(s.vport lp).state.runs || s.vdt.hellos.any (fun h => h.1 = e && h.2.1 = i) then .next s
    else
      .next ((s.modVdt fun v => { v with hellos := v.hellos ++ [(e, i, s.time)],
                                         helloAt := tPut v.helloAt (4 * e + i) s.time }).vdtSend
        lp (s.helloPacket .hello e rp))

/-- A HELLO arrives: HELLO_ACK goes back through the pair of its sender; one for another engine is discarded (R369). -/
def execHelloReceive (p : Nat) (k : Packet) (s : State) : Out :=
  onVport p s fun s =>
    if k.op ≠ .hello || k.ret then .next s
    else match s.takeReceived p k with
      | none => .next s
      | some s =>
        if k.deng ≠ s.mgmt.engId then .next s
        else match s.allPairs.find? fun q => q.1 = k.seng && q.2.2.1 = p with
          | some q => .next (s.vdtSend p (s.helloPacket .helloAck k.seng q.2.2.2))
          | none => .next s

/-- The feed check of a group's member at its first HELLO_ACK: an equal FEED_ID refuses the group (R402). -/
def Group.feedCheck (g : Group) (e : Nat) (same : Bool) : Group :=
  if g.members.contains e && !g.checked.contains e then
    { g with checked := g.checked ++ [e], refused := g.refused || same }
  else g

def State.feedCheck (s : State) (e feed : Nat) : State :=
  if !s.mgmt.glostDone then s else
  let same : Bool := feed = s.mgmt.feedId
  let new := same && s.ckpt.groups.any fun g => g.members.contains e && !g.checked.contains e
  let s := s.modCkpt fun c =>
    let gs := c.groups.map fun g => g.feedCheck e same
    { c with groups := gs, refused := (List.range 3).foldl (fun b j =>
        if (gs[j]?.map (·.refused)).getD false then b ||| BitVec.ofNat 3 (2 ^ j) else b) c.refused }
  if new then s.event 0x0901 2 e else s

/-- A HELLO_ACK arrives within 1 ms: the pair whose HELLO it answers is in service, or, where it names another engine, stays
out with LINK_FAILED. -/
def execHelloAck (p : Nat) (k : Packet) (s : State) : Out :=
  onVport p s fun s =>
    if k.op ≠ .helloAck || k.ret then .next s
    else match s.takeReceived p k with
      | none => .next s
      | some s =>
        if k.deng ≠ s.mgmt.engId then .next s
        else
          let open_ := s.vdt.hellos.filter fun h => s.time ≤ h.2.2 + Config.ms 1 && (s.pair h.1 h.2.1).any (·.1 = p)
          match open_.find? fun h => h.1 = k.seng with
          | some h =>
            let s := s.modVdt fun v => { v with hellos := v.hellos.filter (· ≠ h) }
            .next ((s.duePair h.1 h.2.1 false).feedCheck h.1 k.sub.toNat)
          | none =>
            match open_ with
            | h :: _ =>
              .next (((s.modVdt fun v => { v with hellos := v.hellos.filter (· ≠ h) }).duePair h.1 h.2.1 true).linkFailed p)
            | [] => .next s

/-- No HELLO_ACK within 1 ms: the pair is out of service. -/
def execHelloTimeout (e i : Nat) (s : State) : Out :=
  match s.vdt.hellos.find? fun h => h.1 = e && h.2.1 = i with
  | some h =>
    if h.2.2 + Config.ms 1 < s.time then
      .next ((s.modVdt fun v => { v with hellos := v.hellos.filter (· ≠ h) }).duePair e i true)
    else .next s
  | none => .next s

/-! ## Time across engines (R373) -/

/-- A Pier's copy of global time, in ns. -/
def State.pierTime (s : State) (p : Nat) : Nat := (s.vport p).copy / 65536

/-- The time master in use. -/
def Viaduct.masterNow (v : Viaduct) : Nat := if v.src = 2 then v.backup else v.master

/-- One exchange every 100 µs of master time through pair 0; after 10 in a row without an answer TIME_BACKUP is used. -/
def execTimeExchange (s : State) : Out :=
  let v := s.vdt
  if !v.present || v.selfId = v.master || v.src = 3 || s.clk.master < v.exchangeAt + 100000 then .next s
  else
    let missed := if v.t1.isSome then v.missed + 1 else 0
    let s := s.modVdt fun v => { v with exchangeAt := s.clk.master, missed := missed, t1 := none }
    let s := if 10 ≤ missed && v.src ≠ 2 then
        s.modVdt fun v => { v with src := if v.backup = v.selfId then 3 else 2, missed := 0 }
      else s
    if s.vdt.src = 3 then .next s
    else match s.pair s.vdt.masterNow 0 with
      | none => .next (s.modVdt fun v => { v with t1 := some 0 })
      | some (lp, rp) =>
        .next ((s.modVdt fun v => { v with t1 := some (s.pierTime lp) }).vdtSend lp
          { op := .timeReq, vc := 1, deng := s.vdt.masterNow, seng := v.selfId, dport := rp })

/-- TIME_REQ arrives: the Pier answers with t2 and t3. -/
def execTimeReq (p : Nat) (k : Packet) (s : State) : Out :=
  onVport p s fun s =>
    if k.op ≠ .timeReq || k.ret then .next s
    else match s.takeReceived p k with
      | none => .next s
      | some s =>
        if k.deng ≠ s.mgmt.engId then .next s
        else match s.allPairs.find? fun q => q.1 = k.seng && q.2.2.1 = p with
          | some q =>
            let t := leBytes 8 (s.pierTime p)
            .next (s.vdtSend p { op := .timeResp, vc := 1, deng := k.seng, seng := s.vdt.selfId, dport := q.2.2.2,
                                 data := t ++ t })
          | none => .next s

/-- Correct the master time by the step and stop rules of R340. -/
def Clk.correct (c : Clk) (off : Int) : Clk :=
  if 1000 < off then { c with master := c.master + off.toNat, hold := 0 }
  else if off < -1000 then { c with hold := off.natAbs }
  else c

/-- A bound on a number, both ways. -/
def clampInt (b x : Int) : Int := max (-b) (min b x)

/-- TIME_RESP arrives: the offset, the correction and the trim. -/
def execTimeResp (p : Nat) (k : Packet) (s : State) : Out :=
  onVport p s fun s =>
    if k.op ≠ .timeResp || k.ret then .next s
    else match s.takeReceived p k with
      | none => .next s
      | some s =>
        match s.vdt.t1 with
        | none => .next s
        | some t1 =>
          if k.deng ≠ s.mgmt.engId || k.seng ≠ s.vdt.masterNow || (s.pair k.seng 0).all (·.1 ≠ p) then .next s
          else
            let t2 := leNat (k.data.take 8)
            let t3 := leNat ((k.data.drop 8).take 8)
            let off : Int := (((t2 : Int) - t1) - ((s.pierTime p : Int) - t3)) / 2
            let s := s.modVdt fun v => { v with t1 := none, missed := 0, offset := clampInt 32767 off,
                                                src := if v.src = 2 then 2 else 1 }
            .next (s.modClk fun c => { c.correct off with trim := clampInt 16384 (Config.trim off c.trim) })

end Sys2Proof.Machine
end

