-- ==== Sys2Proof/Machine/Kiln.lean ====
section
/-! DEFINITION. The Kiln: telemetry, the learned table, allotment, F-steps, droop, coolant, supply faults, DEEP_OFF and wake
(R298 to R323, R388, R439 to R441). -/

namespace Sys2Proof.Machine

/-- The states in which the coolant stop acts: from ROM on, SAFE among them (R255; log 20). -/
def State.coolantActs (s : State) : Bool := !(s.mgmt.st = .off || s.mgmt.st = .deepOff || s.mgmt.st = .halted)

/-! ## Telemetry (R300, R301, R318) -/

/-- Sensors 0 to 47 are the fields', 48 to 63 the blades'. -/
def onSensor (n : Nat) (s : State) (f : State → Out) : Out := if n < 64 then f s else .fault .noSuchUnit

def State.blade (s : State) (b : Nat) : Blade := tGet {} s.blades b
def State.modBlade (s : State) (b : Nat) (f : Blade → Blade) : State := { s with blades := tPut s.blades b (f (s.blade b)) }

def between (lo v hi : Int) : Bool := lo ≤ v && v ≤ hi

/-- Table 14.2 for a field. -/
def fieldPlausible (off : Bool) (mv ma temp : Int) : Bool :=
  (if off then between 0 mv 50 else between 500 mv 950) && between (-10000) ma 800000 && between (-20) temp 150

/-- Table 14.2 for a blade. -/
def bladePlausible (mv ma : Int) : Bool := between 40000 mv 70000 && between (-2000) ma 40000

/-- A blade's report lies below 54 V or above 63 V: since when it has done so (R320). -/
def Blade.noteRange (b : Blade) (now : Nat) : Blade :=
  { b with outSince := if between 54000 b.mv 63000 then none else some (b.outSince.getD now) }

/-- Has a sensor's last TELEMETRY_IMPLAUSIBLE been raised within a second? -/
def toldSince (last : Option Nat) (now : Nat) : Bool :=
  match last with
  | some a => now < a + Config.sec 1
  | none => false

/-- An implausible report, or none within 60 µs: the sensor is failed (R300, R301). -/
def State.implausible (s : State) (n : Nat) : State :=
  let now := s.time
  if n < 48 then
    let told := toldSince (s.field n).implausibleAt now
    let s := s.modField n fun f => { f with sfail := true, plausible := 0, good := 0, reportAt := now,
                                            implausibleAt := if told then f.implausibleAt else some now }
    if told then s else s.event 0x0605 3 n (some n)
  else
    let told := toldSince (s.blade (n - 48)).implausibleAt now
    let s := s.modBlade (n - 48) fun b => { b with failed := true, plausible := 0, reportAt := now,
                                                   implausibleAt := if told then b.implausibleAt else some now }
    if told then s else s.event 0x0605 3 n

/-- A plausible report: a failed sensor returns to service after 50 of them in a row (R301). -/
def Field.plausibleReport (f : Field) (now : Nat) : Field :=
  let n := if f.sfail then f.plausible + 1 else 0
  { f with plausible := if n < 50 then n else 0, sfail := f.sfail && n < 50, good := f.good + 1, reportAt := now }

def Blade.plausibleReport (b : Blade) (now : Nat) : Blade :=
  let n := if b.failed then b.plausible + 1 else 0
  { b with plausible := if n < 50 then n else 0, failed := b.failed && n < 50, reportAt := now }

/-- A report of a regulator group or an input converter. A field that a sensor in service shows at 125 °C stops the engine
(R318). -/
def execTelemetryReport (sensor : Nat) (mv ma : Int) (temp : Int) (s : State) : Out :=
  onSensor sensor s fun s =>
    if sensor < 48 then
      let s := s.modField sensor fun f => { f with mv := mv, ma := ma, temp := temp }
      if !fieldPlausible (s.field sensor).railOff mv ma temp then .next (s.implausible sensor)
      else
        let s := s.modField sensor (·.plausibleReport s.time)
        .next (if 125 ≤ temp && !(s.field sensor).sfail && s.coolantActs then s.coolantStop 2 else s)
    else
      let s := s.modBlade (sensor - 48) fun b => ({ b with mv := mv, ma := ma } : Blade).noteRange s.time
      .next (if bladePlausible mv ma then s.modBlade (sensor - 48) (·.plausibleReport s.time) else s.implausible sensor)

/-- No report for 60 µs (R300). -/
def execTelemetryTimeout (sensor : Nat) (s : State) : Out :=
  onSensor sensor s fun s =>
    let last := if sensor < 48 then (s.field sensor).reportAt else (s.blade (sensor - 48)).reportAt
    if s.mgmt.st = .off || s.mgmt.st = .deepOff || s.time < last + Config.us 60 then .next s
    else .next (s.implausible sensor)

/-! ## Phases and the learned table (R306 to R308) -/

def SpanState.active : SpanState → Bool
  | .running | .changing => true
  | _ => false

/-- PHASE_ID of a span; 0 for an idle one (R306). -/
def State.phaseOf (s : State) (n : Nat) : Nat :=
  if (s.span n).state.active then
    (mRead 0 (s.ks s.mgmt.active).sram (polPhaseBase s.image + 4 * n)).toNat
  else 0

/-- Tiles of the field's rectangle that a span's rectangle covers. -/
def SpanRec.cover (r : SpanRec) (f : Nat) : Nat :=
  let x0 := max r.x0 (fieldX f * 128)
  let x1 := min r.x1 (fieldX f * 128 + 127)
  let y0 := max r.y0 (fieldY f * 192)
  let y1 := min r.y1 (fieldY f * 192 + 191)
  (x1 + 1 - x0) * (y1 + 1 - y0)

def MapRec.field? : MapRec → Option Nat
  | .field f _ _ => some f
  | _ => none
def MapRec.tile? : MapRec → Option Nat
  | .tile t _ _ => some t
  | _ => none

/-- Usable tiles of a span in a field (R30). -/
def State.tilesIn (s : State) (r : SpanRec) (f : Nat) : Nat :=
  if s.map.recs.any fun m => m.field? = some f then 0
  else r.cover f - (s.map.recs.filter fun m => match m.tile? with
    | some t => fieldOf t = f && r.holds t
    | none => false).length

def wholeMesh : SpanRec := { x0 := 0, y0 := 0, x1 := 1023, y1 := 1151 }

/-- Usable tiles of a field. -/
def State.fieldUsable (s : State) (f : Nat) : Nat := s.tilesIn wholeMesh f

/-- Tiles at work in a field: phase, tiles and gate value of each span with a phase. -/
def State.loads (s : State) (f : Nat) : List (Nat × Nat × Nat) :=
  s.spans.filterMap fun e =>
    let p := s.phaseOf e.1
    let n := s.tilesIn e.2.layout f
    if p = 0 || n = 0 then none else some (p, n, s.gateOf e.1)

/-- The other usable tiles of a field. -/
def State.idleTiles (s : State) (f : Nat) : Nat := s.fieldUsable f - ((s.loads f).map (·.2.1)).sum

/-- The running step's frequency over 1.25 GHz (R308). -/
def stepRatio (fstep : Nat) : Rat := (Config.freqMHz fstep : Nat) / 1250

/-- Learned power of a phase in µW; w0 for a phase without an entry. -/
def Kiln.w (k : Kiln) (p : Nat) : Rat := ((k.table.find? (·.phase = p)).map (·.w)).getD k.w0

/-- Predicted draw in µW of the tiles of one span in a field. -/
def Kiln.loadPower (k : Kiln) (kf : Rat) (l : Nat × Nat × Nat) : Rat :=
  (l.2.1 : Nat) * (k.w0 + (l.2.2 : Nat) / 64 * kf * (k.w l.1 - k.w0))

def ratSum (l : List Rat) : Rat := l.foldl (· + ·) 0

/-- The part of a prediction that the tiles of phase `p` make, idle tiles being phase 0. -/
def Kiln.partPower (k : Kiln) (kf : Rat) (ls : List (Nat × Nat × Nat)) (idle p : Nat) : Rat :=
  if p = 0 then (idle : Nat) * k.w0 else ratSum ((ls.filter fun l => l.1 = p).map (k.loadPower kf))

/-- Predicted draw of a field in µW (R308). -/
def Kiln.predict (k : Kiln) (kf : Rat) (ls : List (Nat × Nat × Nat)) (idle : Nat) : Rat :=
  ratSum (ls.map (k.loadPower kf)) + (idle : Nat) * k.w0

/-- A phase seen at this tick has an entry: its seed, in place of the one seen least recently where the table is full
(R307). -/
def Kiln.see (k : Kiln) (seed : Nat → Nat) (p : Nat) : Kiln :=
  if k.table.any (·.phase = p) then
    { k with table := k.table.map fun e => if e.phase = p then { e with seen := k.tick } else e }
  else
    let e : PhaseEntry := ⟨p, (seed p : Nat), k.tick⟩
    if k.table.length < 64 then { k with table := k.table ++ [e] }
    else
      let old := k.table.foldl (fun b x => match b with
        | none => some x
        | some y => if x.seen < y.seen then some x else some y) (none : Option PhaseEntry)
      { k with table := (match old with | some o => k.table.filter (· ≠ o) | none => k.table) ++ [e] }

def clampW (w : Rat) : Rat := max 500 (min 65535 w)

/-- The fields whose rail is on. -/
def State.litFields (s : State) : List Nat := (List.range Config.nFields).filter s.qualified

/-- The correction of phase `p` (0: idle) over the fields whose sensors serve (R308). -/
def State.learned (s : State) (kf : Rat) (p : Nat) : Rat :=
  let k := s.kiln
  let fs := s.litFields.filter fun f => !(s.field f).sfail
  let acc := ratSum (fs.map fun f =>
    let ls := s.loads f
    let idle := s.idleTiles f
    let pred := k.predict kf ls idle
    ((((s.field f).mv * (s.field f).ma : Int) : Rat) - pred) * k.partPower kf ls idle p / pred)
  let wt := ratSum (fs.map fun f =>
    if p = 0 then ((s.idleTiles f : Nat) : Rat)
    else ratSum (((s.loads f).filter fun l => l.1 = p).map fun l => (l.2.1 : Nat) * ((l.2.2 : Nat) / 64 * kf)))
  let w := if p = 0 then k.w0 else k.w p
  if wt = 0 then w else clampW (w + acc / wt / 8)

/-- Steps 1 and 2 of a tick: phases seen, and learning (R307 to R309). -/
def State.learn (s : State) : State :=
  let ps := (s.spans.map fun e => s.phaseOf e.1).filter (· ≠ 0)
  let ps := ps.foldl (fun l p => if l.contains p then l else l ++ [p]) []
  let s := s.modKiln fun k => ps.foldl (fun k p => k.see (seedOf s.image) p) k
  let kf := stepRatio s.kiln.fstep
  let new := ps.map fun p => (p, s.learned kf p)
  let w0 := s.learned kf 0
  let update := fun (e : PhaseEntry) => match new.find? (·.1 = e.phase) with
    | some n => { e with w := n.2 }
    | none => e
  s.modKiln fun k => { k with w0 := w0, table := k.table.map update }

/-! ## Allotment (R309, R310); power in µW -/

/-- Measured input power: a failed blade counts 2,016 W. -/
def State.inputPower (s : State) : Int :=
  ((List.range 16).map fun b =>
    let x := s.blade b
    if x.failed then (2016000000 : Int) else x.mv * x.ma).sum

/-- Measured power of a field's core rail; a failed sensor's field counts FLD_RATED. -/
def State.railPower (s : State) (f : Nat) : Int :=
  let x := s.field f
  if x.sfail then (if x.railOff then 0 else 480000000) else x.mv * x.ma

/-- The core budget B. -/
def State.budget (s : State) : Rat :=
  let other := s.inputPower - ((List.range Config.nFields).map s.railPower).sum
  (((s.kiln.cap : Int) * 1000000 - other - (polMargin s.image : Int) * 1000000 : Int) : Rat)

/-- The demand D at a step, every gate at 64. -/
def State.demand (s : State) (fstep : Nat) : Rat :=
  ratSum (s.litFields.map fun f =>
    if (s.field f).sfail then 480000000
    else s.kiln.predict (stepRatio fstep) ((s.loads f).map fun l => (l.1, l.2.1, 64)) (s.idleTiles f))

/-- The dynamic demand of the FLEX or of the FIRM spans. -/
def State.dynamic (s : State) (flex : Bool) : Rat :=
  ratSum (s.spans.map fun e =>
    let p := s.phaseOf e.1
    if e.2.layout.flex ≠ flex || p = 0 then 0
    else
      let n := (s.litFields.map fun f => s.tilesIn e.2.layout f).sum
      (n : Nat) * stepRatio s.kiln.fstep * (s.kiln.w p - s.kiln.w0))

/-- Gate values of the FLEX and the FIRM spans for an excess X, and whether an excess remains with both at their lowest
(R310, R312). -/
def shares (x y y' : Rat) (lmin : Nat) : Nat × Nat × Bool :=
  if x ≤ 0 then (64, 64, false)
  else
    let b : Int := if y ≤ 0 then 48 else min 48 (64 * (x / y)).ceil
    let y48 : Rat := if y ≤ 0 then 0 else y * 48 / 64
    let flex := (64 - b).toNat
    if x ≤ y48 then (flex, 64, false)
    else
      let rest := x - y48
      let l : Int := if y' ≤ 0 then lmin else max lmin (64 * (1 - rest / y')).floor
      let most : Rat := if y' ≤ 0 then 0 else y' * (64 - (lmin : Nat)) / 64
      (flex, l.toNat, decide (most < rest))

/-! ## Frequency steps (R312, R313, R328) -/

/-- A field's temperature as the Kiln counts it (R301). -/
def State.countedTemp (s : State) (f : Nat) : Int :=
  if (s.field f).sfail then (polTlimit s.image : Int) + 1 else (s.field f).temp

/-- Is a field above T_LIMIT (KLN_STATUS.THERM)? -/
def State.therm (s : State) : Bool := (List.range Config.nFields).any fun f => decide ((polTlimit s.image : Int) < s.countedTemp f)

/-- The tick's last step (R312). -/
def State.decideStep (s : State) : State :=
  let k := s.kiln
  let recent : Bool := match k.lastChange with
    | some a => s.time < a + Config.ms 1
    | none => false
  if recent then s
  else if (3 ≤ k.excess || s.therm) && k.fstep < 7 then
    if k.pend && k.fstep < k.fpend then s else s.askStep (k.fstep + 1)
  else if 100 ≤ k.headroom && polFtop s.image < k.fstep then
    if k.pend then s else s.askStep (k.fstep - 1)
  else s

/-- Number of the 100 µs period of global time. -/
def State.tickNo (s : State) : Nat := s.clk.master / 100000

/-- One tick of the Kiln, in the six steps of R309. -/
def execKilnTick (s : State) : Out :=
  if !(s.mgmt.st = .glost || s.inService) || s.tickNo ≤ s.kiln.tick then .next s
  else
    let s := s.modKiln fun k => { k with tick := s.tickNo, pIn := (s.inputPower / 1000000).toNat }
    let s := s.learn
    let b := s.budget
    let x := s.demand s.kiln.fstep - b
    let g := shares x (s.dynamic true) (s.dynamic false) (polLmin s.image)
    let gates := (s.spans.filter fun e => e.2.state ≠ .unused).map fun e => (e.1, if e.2.layout.flex then g.1 else g.2.1)
    let low := gates.any fun e => e.2 < 64
    let raise := low && !s.kiln.limiting && !toldSince s.kiln.limitRaised s.time
    let margin : Rat := (polMargin s.image : Nat) * 1000000
    let room := s.kiln.fstep ≠ 0 && decide (s.demand (s.kiln.fstep - 1) ≤ b - margin)
      && (List.range Config.nFields).all fun f => decide (s.countedTemp f + 5 ≤ (polTlimit s.image : Int))
    let s := s.modKiln fun k =>
      { k with gates := gates, limiting := low, limitRaised := if raise then some s.time else k.limitRaised
               excess := if g.2.2 then k.excess + 1 else 0, headroom := if room then k.headroom + 1 else 0 }
    let s := if raise then s.event 0x0601 3 s.kiln.cap else s
    .next s.decideStep

/-- A write to KLN_CAP, clamped to 4,000 to CAP_W (R323). -/
def execKlnCapWrite (v : BitVec 32) (s : State) : Out :=
  if s.mgmt.st = .glost || s.inService then
    .next (s.modKiln fun k => { k with cap := max 4000 (min (polCap s.image) (bitsW v 0 15)) })
  else .next s

/-- Real time passes while no core cycle is delivered, or with each of them: the master time follows (R339, R373). -/
def Clk.advance (c : Clk) (d : Nat) : Clk :=
  if !c.running then c else
  let held := min (Config.ns c.hold) d
  let acc := c.acc + (d - held) * (16777216 + c.trim).toNat
  let unit := 630 * 16777216
  { c with acc := acc % unit, master := c.master + 2 * (acc / unit), hold := c.hold - ceilDiv held 315 }

/-- The copies of global time, of fields and Piers, advance by some 2^-16 ns (R339). -/
def State.addCopies (s : State) (d : Nat) : State :=
  { s with fields := s.fields.map fun e => (e.1, { e.2 with copy := e.2.copy + d })
           ports := s.ports.map fun e => (e.1, { e.2 with copy := e.2.copy + d })
           vdt := { s.vdt with ports := s.vdt.ports.map fun e => (e.1, { e.2 with copy := e.2.copy + d }) } }

/-- Has every field been free of droop for 10 µs (R313)? -/
def State.droopFree (s : State) : Bool :=
  s.fields.all fun e => e.2.stretch = 0 && (match e.2.lastStretch with
    | some a => a + Config.us 10 ≤ s.time
    | none => true)

/-- The change is made at the root: the idle core is judged locked after 81.92 µs and R313 permits; the domain stands for
16 cycles of the slower and 8 of the new source (R328, R332). -/
def execFstepChange (s : State) : Out :=
  let k := s.kiln
  if !k.pend || !(s.mgmt.st = .glost || s.inService) || s.time < k.lockAt + Config.ns 81920 || !s.droopFree then .next s
  else
    let gap := 16 * max (Config.period k.fstep) (Config.period k.fpend) + 8 * Config.period k.fpend
    let s := { s with time := s.time + gap }.addCopies (gap * 65536 / 315)
    let s := s.modKiln fun k => { k with fstep := k.fpend, pend := false, lastChange := some s.time }
    let s := s.modClk fun c => { c.advance gap with core := !c.core, switches := satAdd 255 c.switches 1 }
    -- after the Bisque pass the steps go on until F_TOP is reached (R311)
    .next (if s.kiln.fstep < polFtop s.image then s.askStep (s.kiln.fstep + 1) else s)

/-! ## Droop (R314, R315) -/

/-- Does ck_core reach the field? -/
def State.fieldClocked (s : State) (f : Nat) : Bool :=
  s.qualified f && ((s.mgmt.st = .bisque && s.clk.valid) || s.mgmt.st = .glost || s.inService)

/-- A detector sees the rail low: the field's clock enters a stretch. -/
def execDroop (f : Nat) (s : State) : Out :=
  onField f s fun s =>
    let n := polStretch s.image
    if !s.fieldClocked f || (s.field f).stretch ≠ 0 || n = 0 then .next s
    else
      let told : Bool := match (s.field f).droopRaised with
        | some a => s.time < a + Config.ms 1
        | none => false
      let s := s.modField f fun x =>
        { x with stretch := 2 * n, droops := satAdd 65535 x.droops 1, droopRaised := if told then x.droopRaised else some s.time }
      .next (if told then s else s.event 0x0602 7 (s.field f).droops (some f) (unit := f))

/-- At the last stretched cycle: another STRETCH cycles where a detector still sees the rail low, else the stretch ends. -/
def execStretchEnd (f : Nat) (low : Bool) (s : State) : Out :=
  onField f s fun s =>
    let x := s.field f
    if x.stretch ≠ 1 then .next s
    else .next (s.modField f fun x =>
      if low then { x with stretch := 2 * polStretch s.image + 1 } else { x with stretch := 0, lastStretch := some s.time })

/-! ## Coolant, supply and feed (R317, R319, R320, R383) -/

/-- A filtered coolant pin reads low. -/
def execCoolantLoss (b : Bool) (s : State) : Out :=
  let s := s.modMgmt fun m => if b then { m with coolantB := false } else { m with coolantA := false }
  .next (if s.coolantActs then s.coolantStop 1 else s)

/-- A field whose supply is gone: listed with CAUSE 1, in the Bisque pass with PHASE 1 once the live map is built, later with
PHASE 3 and all that R319 says. -/
def State.tripField (s : State) (f : Nat) : State :=
  let s := s.event 0x0604 3 f (some f)
  if s.mgmt.mapAt.isSome then s.loseField f
  else (s.modField f fun x => { x.off with stage := .listed 1, tripped := true }).clearField f

/-- Does a group trip that has shown `mv` and `ma` for `ns`: over its current, over its voltage, or under it outside a ramp
(R302)? -/
def RegCfg.trips (r : RegCfg) (ramp : Bool) (mv ma : Int) (ns : Nat) : Bool :=
  (decide ((r.overMa : Int) < ma) && r.overMaNs ≤ ns) || (decide ((r.overMv : Int) < mv) && r.overMvNs ≤ ns)
    || (!ramp && decide (mv < (r.underMv : Int)) && r.underMvNs ≤ ns)

/-- A regulator group that has shown a voltage and a current for a time trips by its limits: its rail is off (R263, R302,
R319). -/
def execRegulatorTrip (g : GroupShown) (s : State) : Out :=
  onField g.field s fun s =>
    let x := s.field g.field
    let trips := match s.kiln.reg with | some r => r.trips x.stage.isRamping g.mv g.ma g.ns | none => false
    if x.railOff || !trips || !s.stoppable then .next s
    else
      let s := (s.tripField g.field).failCutOff
      .next (if s.mgmt.mapAt.isNone then s.listRest else s)

/-- Does feed group B supply the blade (R298)? -/
def bladeFeedB (b : Nat) : Bool := 8 ≤ b

/-- Has every blade of a feed group been out of range for 200 µs (R320)? -/
def State.groupOut (s : State) (b : Bool) : Bool :=
  ((List.range 16).filter fun k => bladeFeedB k = b).all fun k => match (s.blade k).outSince with
    | some a => a + Config.us 200 ≤ s.time
    | none => false

/-- Every blade of a feed group is out of range for 200 µs: its fields and Piers are off (R320). -/
def execFeedGroupLoss (b : Bool) (s : State) : Out :=
  if !(if b then s.kiln.feedB else s.kiln.feedA) || !s.groupOut b then .next s
  else
    let s := s.modKiln fun k => if b then { k with feedB := false } else { k with feedA := false }
    if !s.stoppable then .next s
    else
      let fs := (List.range Config.nFields).filter fun f =>
        fieldFeedB f = b && !s.factoryField f && !(s.map.recs.any fun r => r.field? = some f)
          && (match (s.field f).stage with | .listed _ => false | _ => true)
      let s := fs.foldl (fun s f => s.tripField f) s
      let s := ((List.range 4).filter fun h => (Block.pcie h).feedB = b).foldl (fun s h => s.failPort h) s
      let s := ((s.vdt.ports.map (·.1)).filter fun p => (Block.vdt p).feedB = b).foldl (fun s p => s.failVport p) s
      let s := s.failCutOff
      .next (if s.mgmt.mapAt.isNone && s.mgmt.st = .bisque then s.listRest else s)

/-! ## DEEP_OFF, wake, cold reset and the input (R28, R321, R322, R388, R441) -/

/-- A write to KLN_CTRL (Table 14.8): DEEP with the key takes the engine to DEEP_OFF. -/
def execDeepOffEntry (v : BitVec 32) (s : State) : Out :=
  if bitsW v 16 16 = 0xDEE0 && bitW v 0 && (s.inService || s.mgmt.st = .safe || s.mgmt.st = .halted) then
    .next (s.coldReset.modMgmt fun m => { m with st := .deepOff })
  else .next s

/-- WAKE_N low for 100 µs in DEEP_OFF: a cold reset, and the start from OFF. -/
def execWake (slot : BitVec 8) (feed : BitVec 4) (s : State) : Out :=
  if s.mgmt.st = .deepOff then .next (s.coldReset.powerOn slot feed) else .next s

/-- RESET_N low for 10 µs: every domain is reset while the pin stays low. -/
def execColdReset (s : State) : Out :=
  if s.mgmt.st = .deepOff then .next s
  else .next (s.coldReset.modMgmt fun m => { m with resetN := false })

/-- RESET_N rises: the straps are latched, and with valid input the engine starts from OFF. -/
def execResetNRelease (slot : BitVec 8) (feed : BitVec 4) (s : State) : Out :=
  if s.mgmt.resetN then .next s
  else
    let s := s.modMgmt fun m => { m with resetN := true }
    .next (if s.mgmt.standby then s.powerOn slot feed else s)

/-- Both feed groups fall below 54 V for 200 µs: every rail goes off; the next valid input starts from OFF. -/
def execInputLoss (s : State) : Out :=
  if !s.mgmt.standby then .next s
  else .next (s.coldReset.modMgmt fun m => { m with standby := false })

end Sys2Proof.Machine
end

