-- ==== Sys2Proof/Machine/Clock.lean ====
section
/-! DEFINITION. Clocks: loss of the root, periodic checks, the gate tree, and global time (R329, R334, R337 to R341). -/

namespace Sys2Proof.Machine

/-! ## Modes of the privileged blocks (R336, Table 15.7) -/

/-- RUN, SLEEP or DEEP; wake logic in DEEP_OFF has no clock. -/
inductive BlockMode where
  | run | sleep | deep | noClock
  deriving DecidableEq, Repr

def EngState.asleep : EngState → Bool
  | .safe | .halted => true
  | _ => false

/-- Does the Keystone's NVM port serve: reading an image, writing a rejection record, or a recovery? -/
def Keystone.nvmBusy (k : Keystone) : Bool := k.verdict = 1 || k.rejecting.isSome || (match k.rcv.phase with
  | .idle | .done | .failed => false
  | _ => true)

def State.keystoneMode (s : State) (k : Side) : BlockMode :=
  if s.mgmt.st = .deepOff || s.mgmt.st = .off then .deep
  else if k = s.mgmt.active || !s.mgmt.elected then .run
  else if s.mgmt.st = .safe then .run
  else if (s.ks k).verdict = 1 then .run else .sleep

def State.kilnMode (s : State) : BlockMode := if s.mgmt.st = .deepOff then .deep else .run

def State.nvmMode (s : State) (k : Side) : BlockMode :=
  if s.mgmt.st = .deepOff then .deep
  else if !s.mgmt.st.asleep && (s.ks k).nvmBusy then .run else .sleep

def State.wakeMode (s : State) : BlockMode := if s.mgmt.st = .deepOff then .noClock else .run

/-! ## The root and the periodic checks (R329, R338) -/

/-- ROOT_LOST in service: the engine stops (R329). -/
def State.loseRoot (s : State) : State :=
  if s.inService then (s.event 0x0703 2 s.rootCode).halt else s

/-- REFCLK of the root shows no edge for 100 ns. -/
def execRootLost (s : State) : Out := .next s.loseRoot

/-- Is a count within so many millionths below and above the expected one? -/
def inTol (expect count below above : Nat) : Bool :=
  expect * (1000000 - below) ≤ count * 1000000 && count * 1000000 ≤ expect * (1000000 + above)

/-- Is the clock one that is measured now? -/
def State.measured (s : State) (code : Nat) : Bool :=
  if code = 0 then true
  else if code = 1 then s.nvmMode .south = .run
  else if code = 2 then s.nvmMode .north = .run
  else if 0x10 ≤ code && code < 0x20 then true
  else if 0x20 ≤ code && code < 0x50 then s.qualified (code - 0x20)
  else if 0x50 ≤ code && code < 0x54 then (s.port (code - 0x50)).linkUp
  else if 0x60 ≤ code && code < 0x80 then (s.vport (code - 0x60)).state.runs
  else false

/-- Is a count within the tolerance of Table 15.5? -/
def State.clockOk (s : State) (code count : Nat) : Bool :=
  if code = 0 then inTol 5242880 count 200 200
  else if code < 3 then inTol (Config.nvmCount code) count 20000 20000
  else if code < 0x20 then inTol 209715 count 200 200
  else if code < 0x50 then inTol (2621440 * Config.freqMHz s.kiln.fstep / 1250) count 1000 1000
  else if code < 0x54 then inTol (Config.pcieCount (s.port (code - 0x50)).rate) count 5600 300
  else inTol 2097152 count 200 200

/-- A result out of tolerance: CLOCK_FAULT, and the action of Table 15.5. -/
def State.clockFault (s : State) (code : Nat) : State :=
  let s := (s.event 0x0702 2 code).modClk fun c => { c with faults := satAdd 255 c.faults 1, last := code }
  if 0x50 ≤ code && code < 0x54 then (s.portDown (code - 0x50)).modPort (code - 0x50) (·.lose .clockFault)
  else if 0x60 ≤ code && code < 0x80 then s.vdtDown (code - 0x60)
  else if code = s.rootCode || code = 0x20 + s.rootField then s.loseRoot
  else s

/-- One result: of a clock that the round measures, or that is measured again. It is discarded where the window was disturbed,
and judged else; a saturated count is out of range (R337). -/
def State.checkClock (due : Bool) (s : State) (r : Nat × Nat) : State :=
  if !s.inService || !s.measured r.1 || !(due || s.clk.again.contains r.1) then s
  else
    let rest := s.clk.again.filter (· ≠ r.1)
    if s.disturbed r.1 then s.modClk fun c => { c with again := rest ++ [r.1] }
    else
      let s := (s.measure r.1 r.2).modClk fun c => { c with again := rest }
      if r.2 ≤ 0xFFFFFFFF && s.clockOk r.1 r.2 then s else s.clockFault r.1

/-- A round of checks, once in each second of global time, or measurements made again after it, with the counts they give:
clock code and count (R337, R338). -/
def execClockCheck (results : List (Nat × Nat)) (s : State) : Out :=
  let due : Bool := s.clk.roundAt + 1000000000 ≤ s.clk.master
  if !s.inService || !(due || !s.clk.again.isEmpty) then .next s
  else
    let s := if due then s.modClk fun c => { c with roundAt := s.clk.master, rounds := satAdd 65535 c.rounds 1, again := [] }
      else s
    .next (results.foldl (State.checkClock due) s)

/-! ## The gate tree (R334) -/

/-- PIERMESH p names Viaduct Pier p below 32, and PCI Express Pier p − 32 from there on. -/
def pierBlock (p : Nat) : Block := if p < 32 then .vdt p else .pcie (p - 32)
def pierField (p : Nat) : Nat := fieldOf ((pierBlock p).tiles.headD 0)

/-- Is the node enabled? -/
def State.gateOn (s : State) : GateNode → Bool
  | .field n => s.qualified n && !s.clk.off.contains (.field n)
  | .fabric n => !(s.field n).railOff
  | .compute t => s.usable t && (s.spanOf t).isSome && !s.clk.off.contains (.compute t)
  | .seq t => !((s.tile t).seq.state = .idle || (s.tile t).seq.state = .stopped)
  | .mat t => !(s.tile t).eng.mat.isEmpty
  | .vec t => !(s.tile t).eng.vec.isEmpty
  | .pierMesh p => !s.clk.off.contains (.pierMesh p)

/-- Is a child of the node enabled? -/
def State.childOn (s : State) : GateNode → Bool
  | .field n => s.gateOn (.fabric n) || (fieldTiles n).any (fun t => s.gateOn (.compute t))
      || (List.range 36).any fun p => pierField p = n && s.gateOn (.pierMesh p)
  | .compute t => s.gateOn (.seq t) || s.gateOn (.mat t) || s.gateOn (.vec t)
  | _ => false

/-- The nodes that the Keystone commands: fields, compute domains and Piers' mesh sides; FABRIC stays enabled while its
field's rail is on, and the engines' nodes are the tile's own (Table 15.6). -/
def nodeCommanded : GateNode → Bool
  | .field _ | .compute _ | .pierMesh _ => true
  | _ => false

def nodeExists : GateNode → Bool
  | .field n | .fabric n => n < Config.nFields
  | .compute t | .seq t | .mat t | .vec t => t < Config.nTiles
  | .pierMesh p => p < 36

/-- The number by which GATE_REFUSED names a node (log 22). -/
def nodeArg : GateNode → Nat
  | .field n => n
  | .fabric n => 2 ^ 24 + n
  | .compute t => 2 * 2 ^ 24 + t
  | .seq t => 3 * 2 ^ 24 + t
  | .mat t => 4 * 2 ^ 24 + t
  | .vec t => 5 * 2 ^ 24 + t
  | .pierMesh p => 6 * 2 ^ 24 + p

/-- A gate command of the active Keystone: enabling is always permitted; disabling is refused while a child is enabled. -/
def execGateCommand (node : GateNode) (en : Bool) (s : State) : Out :=
  if !nodeExists node then .fault .noSuchUnit
  else if !nodeCommanded node then .next s
  else if en then .next (s.modClk fun c => { c with off := c.off.filter (· ≠ node) })
  else if s.childOn node then .next (s.event 0x0701 2 (nodeArg node))
  else .next (s.modClk fun c => { c with off := c.off.filter (· ≠ node) ++ [node] })

/-! ## Global time (R339, R340) -/

/-- The Keystone broadcasts a beacon every 100 µs of master time. -/
def execGtimeBeacon (s : State) : Out :=
  let due : Bool := match s.clk.beacon with
    | some a => a + 100000 ≤ s.clk.master
    | none => true
  if s.clk.running && due && (s.mgmt.st = .bisque || s.mgmt.st = .glost || s.inService) then
    .next (s.modClk fun c => { c with beacon := some c.master })
  else .next s

/-- Correct a copy by the beacon's result, both in 2^-16 ns. -/
def correctCopy (copy result : Nat) : Nat × Pace :=
  if result = copy then (copy, .normal)
  else if copy < result then (if result - copy ≤ 65536000 then (copy, .fast (result - copy)) else (result, .normal))
  else if copy - result ≤ 65536000 then (copy, .slow (copy - result)) else (copy, .hold)

/-- A beacon reaches field controller `f`, PCI Express Pier f − 48 or Viaduct Pier f − 52, after `latency` cycles. -/
def execBeaconArrive (f : Nat) (sent latency : Nat) (s : State) : Out :=
  if 84 ≤ f then .fault .noSuchUnit
  else if s.clk.beacon ≠ some sent then .next s
  else
    let result := sent * 65536 + latency * Config.period16 s.kiln.fstep
    if f < 48 then
      if s.qualified f then .next (s.modField f fun x =>
        let c := correctCopy x.copy result
        { x with copy := c.1, pace := c.2 })
      else .next s
    else if f < 52 then .next (s.modPort (f - 48) fun x =>
      let c := correctCopy x.copy result
      { x with copy := c.1, pace := c.2 })
    else if (tGet? s.vdt.ports (f - 52)).isSome then .next (s.modVport (f - 52) fun x =>
      let c := correctCopy x.copy result
      { x with copy := c.1, pace := c.2 })
    else .next s

end Sys2Proof.Machine
end

