-- ==== Sys2Proof/Machine/Glost.lean ====
section
/-! DEFINITION. The Glost pass: the broadcast of the image's segments to the tiles, pulls, reports and the span layout check
(R241, R271 to R276). -/

namespace Sys2Proof.Machine

/-- A Glost command to a tile: it acts on a usable tile while the pass runs. -/
def glostTile (t : Nat) (s : State) (f : State → Out) : Out :=
  onTile t s fun s =>
    if s.mgmt.st = .glost && !s.mgmt.glostDone && s.usable t && (s.ks s.mgmt.active).rejecting.isNone then f s
    else .next s

/-! ## What the active Keystone broadcasts (R271, R273) -/

/-- The digest of a directory segment: SHA-384 over its SEGNO and its bytes. -/
def dirDigest (m : Mem) (k : Nat) : List Byte := leBytes 48 (Config.sha384 (leBytes 2 k ++ segBytes m k 0 (segLen m k)))

/-- The digests of the digest command that begins with directory segment `first`: at most five. -/
def digestsFrom (m : Mem) (first : Nat) : List (List Byte) :=
  (List.range (min 5 (dirCount (glostN m) - first))).map fun i => dirDigest m (first + i)

/-- The bytes of a part. -/
def partBytes (m : Mem) (seg part : Nat) : List Byte := segBytes m seg (256 * part) (min 256 (segLen m seg - 256 * part))

/-- Has the Keystone begun to send the segment, or may it: at most one segment in any 4,096 cycles? -/
def State.mayBroadcast (s : State) (seg : Nat) : Bool :=
  s.mgmt.segsSent.contains seg || (match s.mgmt.segAt with
    | some a => decide (a + 4096 ≤ s.now)
    | none => true)

/-- The broadcast of a segment has begun. -/
def State.noteSegment (s : State) (seg : Nat) : State :=
  if s.mgmt.segsSent.contains seg then s
  else s.modMgmt fun m => { m with segsSent := m.segsSent ++ [seg], segAt := some s.now }

/-! ## The commands at a tile (R273, R274) -/

/-- The open command: N and D of the image. -/
def execGlostOpen (t : Nat) (n d : Nat) (s : State) : Out :=
  glostTile t s fun s =>
    if n ≠ glostN s.image || d ≠ dirCount n then .next s
    else .next (s.modGlost t fun _ => { opened := true, n := n, d := d })

/-- The digests of a digest command are kept. -/
def GlostTile.keepDigests (g : GlostTile) (first : Nat) (ds : List (List Byte)) : GlostTile :=
  { g with digests := (List.range (min 5 ds.length)).foldl (fun m i => tPut m (first + i) (ds.getD i [])) g.digests }

/-- A digest command: the directory digests from segment `first` on, five to a command. -/
def execGlostDigests (t : Nat) (first : Nat) (digests : List (List Byte)) (s : State) : Out :=
  glostTile t s fun s =>
    if !(s.tile t).glost.opened || first % 5 ≠ 0 || digests ≠ digestsFrom s.image first then .next s
    else .next (s.modGlost t (·.keepDigests first digests))

/-- Bytes of directory segment `k` (R271). -/
def GlostTile.dirLen (g : GlostTile) (k : Nat) : Nat := min 4096 (64 * (g.n - g.d - 64 * k))

/-- Write the tile's record area: its entries in ascending SEGNO (R272, R274). -/
def State.writeRecords (s : State) (t : Nat) : State :=
  let es := (s.tile t).glost.expect
  (List.range es.length).foldl (fun s i => match es[i]? with
    | some e => s.padWrite t (0xFA00 + 64 * i) e.2
    | none => s) s

/-- A complete directory segment: verified by its digest, the entries for this tile are kept. -/
def State.keepDirectory (s : State) (t seg : Nat) (bs : List Byte) : State :=
  let g := (s.tile t).glost
  match tGet? g.digests seg with
  | none => s
  | some dg =>
    if Config.sha384 (leBytes 2 seg ++ bs) ≠ leNat dg then
      (if g.closedAt.isSome then s.pullFails t else s)
    else
      let raws := (List.range (bs.length / 64)).map fun j => (g.d + 64 * seg + j, (bs.drop (64 * j)).take 64)
      let mine := raws.filter fun r => (dirEntry r.2).holds t
      (s.modGlost t fun g =>
        { g with verified := g.verified ++ [seg], expect := mine.foldl (fun m r => tPut m r.1 r.2) g.expect }).writeRecords t

/-- One part reaches a tile: hashed, landed or discarded; a complete segment is verified (R274). -/
def State.glostPart (s : State) (t seg part : Nat) (bs : List Byte) : State :=
  let g := (s.tile t).glost
  if !g.opened || g.verified.contains seg then s
  else
    let got := (if part = 0 then [] else tGet [] g.got seg) ++ bs
    let keep := fun (s : State) => s.modGlost t fun g => { g with got := tPut g.got seg got }
    if seg < g.d then
      if g.dirLen seg ≤ 256 * (part + 1) then (keep s).keepDirectory t seg got else keep s
    else match tGet? g.expect seg with
      | none => s
      | some raw =>
        let e := dirEntry raw
        let s := keep (s.landSeg t e.dest (e.loff + 256 * part) bs)
        if 256 * (part + 1) < e.len then s
        else if segOk raw got then s.modGlost t fun g => { g with verified := g.verified ++ [seg] }
        else if g.closedAt.isSome then s.pullFails t else s

/-- A part of a segment of the image, in the pace at which the Keystone sends segments. -/
def execGlostPart (t : Nat) (seg part : Nat) (bytes : List Byte) (s : State) : Out :=
  glostTile t s fun s =>
    if glostN s.image ≤ seg || segLen s.image seg ≤ 256 * part || bytes ≠ partBytes s.image seg part || !s.mayBroadcast seg
    then .next s
    else .next ((s.noteSegment seg).glostPart t seg part bytes)

/-- The close command, after every segment. -/
def execGlostClose (t : Nat) (s : State) : Out :=
  glostTile t s fun s =>
    if !(List.range (glostN s.image)).all s.mgmt.segsSent.contains then .next s
    else
    let s := s.modMgmt fun m => { m with closeAt := some (m.closeAt.getD s.time), step := 8 }
    .next (s.modGlost t fun g => { g with closedAt := some (g.closedAt.getD s.now) })

/-! ## Pulls (R275) -/

/-- Are all directory segments verified? -/
def GlostTile.dirDone (g : GlostTile) : Bool := g.opened && (List.range g.d).all g.verified.contains

/-- Does the tile pull the segment: a directory segment it lacks, or, with the directory, an expected one? -/
def GlostTile.lacks (g : GlostTile) (seg : Nat) : Bool :=
  !g.verified.contains seg && (if g.dirDone then (tGet? g.expect seg).isSome else seg < g.d)

/-- The neighbours a tile may pull a segment from: toward the active edge, west, east, away from the edge. -/
def State.pullFrom (s : State) (t : Nat) (e : DirEntry) : List Nat :=
  let near : Dir := if s.mgmt.active = .south then .south else .north
  ([near, .west, .east, near.opposite].filterMap (neighbour t)).filter fun u => s.usable u && e.holds u

/-- A GET of a pull: `n` bytes from the segment's landing place in the candidate, `off` bytes on, to the same place here. -/
def State.pullGet (s : State) (t u id : Nat) (e : DirEntry) (off n : Nat) : IssueOp :=
  let a := match e.dest with
    | 0 => padAddr u (e.loff + off)
    | 1 => regAddr u (0x2000 + e.loff + off)
    | _ => regAddr u (0x400 + e.loff + off)
  { id := id, kind := .get, dest := .tile s.mgmt.engId u, vc := 0, addr := a, len := n, loc := e.loff + off, sub := 0,
    rb := 0, tag := mkTag (s.tile t).course 0, entry := none, epoch := s.routes.epoch, pull := true }

/-- The interface issues FLOW_RESET for the candidate whose GET failed (R275). -/
def State.resetCand (s : State) (t : Nat) : State :=
  match (s.tile t).glost.resetOf, (s.tile t).ni.freeId with
  | some u, some id =>
    let o : IssueOp := { id := id, kind := .flowReset, dest := .tile s.mgmt.engId u, vc := 0, addr := padAddr u 0, len := 0,
                         loc := 0, sub := 0, rb := 0, tag := 0, entry := none, epoch := s.routes.epoch }
    (s.modGlost t fun g => { g with resetOf := none }).enterOp t o
  | _, _ => s

/-- The GETs of a pull from tile `u`, 256 bytes each (R275). -/
def State.pullGets (s : State) (t u seg : Nat) (e : DirEntry) : State :=
  let n := ceilDiv e.len 256
  let s := s.modGlost t fun g => { g with pull := some ⟨seg, u, n, false⟩ }
  ((List.range n).foldl (fun s i => match (s.tile t).ni.freeId with
    | some id => s.modTile t (·.modNi fun x => x.append (s.pullGet t u id e (256 * i) (min 256 (e.len - 256 * i))))
    | none => s) s).pump t

/-- The pull of a content segment: from the next candidate in the list, which starts again when exhausted; last in it stands
the active Keystone. -/
def State.pullContent (s : State) (t seg : Nat) (raw : List Byte) : State :=
  let e := dirEntry raw
  let cs := s.pullFrom t e
  let k := tGet 0 (s.tile t).glost.tried seg
  let s := (s.modGlost t fun g => { g with pulls := g.pulls + 1, tried := tPut g.tried seg (k + 1) }).resetCand t
  match cs[k % (cs.length + 1)]? with
  | none => s.modGlost t fun g => { g with asked := g.asked ++ [seg] }
  | some u => s.pullGets t u seg e

/-- From 65,536 cycles after the close command a tile pulls a segment it lacks, directory segments first and one at a time. -/
def execGlostPull (t : Nat) (seg : Nat) (s : State) : Out :=
  glostTile t s fun s =>
    let g := (s.tile t).glost
    let due : Bool := match g.closedAt with
      | some a => a + 65536 ≤ s.now
      | none => false
    if !due || g.listed || g.reported || !g.lacks seg || g.asked.contains seg || g.pull.isSome || !(s.tile t).ni.ops.isEmpty
    then .next s
    else match tGet? g.expect seg with
      | some raw => .next (s.pullContent t seg raw)
      | none => .next (s.modGlost t fun g => { g with pulls := g.pulls + 1, asked := g.asked ++ [seg] })

/-- The active Keystone sends a segment's parts again to the tile that asked, a directory segment's with the digest
command that covers it (R273, R275). -/
def execPullRequest (t : Nat) (seg : Nat) (s : State) : Out :=
  glostTile t s fun s =>
    if !(s.tile t).glost.asked.contains seg then .next s
    else
      let m := s.image
      let n := segLen m seg
      let bs := segBytes m seg 0 n
      let s := s.modGlost t fun g =>
        let g := { g with asked := g.asked.filter (· ≠ seg) }
        if seg < g.d then g.keepDigests (seg / 5 * 5) (digestsFrom m (seg / 5 * 5)) else g
      .next ((List.range (ceilDiv n 256)).foldl (fun s p => s.glostPart t seg p ((bs.drop (256 * p)).take 256)) s)

/-! ## Reports and the end of the pass (R241, R276) -/

/-- The tile has verified every segment it expects. -/
def GlostTile.done (g : GlostTile) : Bool := g.dirDone && g.expect.all fun e => g.verified.contains e.1

/-- A span record passes R241 on its own. -/
def State.spanRecOk (s : State) (r : SpanRec) : Bool :=
  r.x0 ≤ r.x1 && r.y0 ≤ r.y1 && r.x1 < Config.cols && r.y1 < Config.rows && 2 ≤ r.arb && r.drainUs ≤ 100000
    && (List.range (r.y1 + 1 - r.y0)).any fun j => (List.range (r.x1 + 1 - r.x0)).any fun i =>
      !listedIn s.map.factory (tileId (r.x0 + i) (r.y0 + j))

def SpanRec.meets (a b : SpanRec) : Bool := a.x0 ≤ b.x1 && b.x0 ≤ a.x1 && a.y0 ≤ b.y1 && b.y0 ≤ a.y1

def spansApart : List SpanRec → Bool
  | [] => true
  | r :: l => !l.any r.meets && spansApart l

/-- The span layout passes R241. -/
def State.layoutOk (s : State) : Bool :=
  let rs := spanRecs s.image
  rs.all (fun e => s.spanRecOk e.2) && spansApart (rs.map (·.2)) && noDup (rs.map (·.1)) && spanReservedOk s.image

/-- Every tile has reported or is listed: the live map, the events, the span layout, and the spans to be started (R276). -/
def State.glostFinish (s : State) : State :=
  let tiles := s.tiles.filter fun e => s.usable e.1
  let lost := (tiles.filter fun e => e.2.glost.listed).map (·.1)
  let pulls := tiles.map fun e => e.2.glost.pulls
  let s := if lost.isEmpty then s
    else ((s.addRecords 2 (lost.map fun t => .tile t 2 3)).routeDue).event 0x0804 2 lost.length
  let s := if pulls.sum = 0 then s
    else s.event 0x0802 2 (min 0xFFFF (pulls.filter (· ≠ 0)).length + 65536 * min 0xFFFF pulls.sum)
  if !s.layoutOk then s.rejectImage 12 0
  else
    let span := fun (r : SpanRec) => ({ layout := r, state := .loading } : Span)
    { (s.modMgmt fun m => { m with glostDone := true, step := 9 }) with
      spans := tOf ((spanRecs s.image).map fun e => (e.1, span e.2)) }

/-- Has every usable tile reported? -/
def State.allReported (s : State) : Bool :=
  (List.range Config.nTiles).all fun t => !s.usable t || (s.tile t).glost.reported

/-- A tile reports that it has verified everything, or that it is listed; the last report ends the pass. -/
def execGlostReport (t : Nat) (s : State) : Out :=
  glostTile t s fun s =>
    let g := (s.tile t).glost
    if g.reported || !(g.done || g.listed) then .next s
    else
      let s := s.modGlost t fun g => { g with reported := true }
      .next (if s.allReported then s.glostFinish else s)

/-- 10 s after the close command the tiles that have not reported are listed (R276). -/
def execGlostTimeout (s : State) : Out :=
  match s.mgmt.closeAt with
  | none => .next s
  | some a =>
    if s.mgmt.st ≠ .glost || s.mgmt.glostDone || s.time < a + Config.sec 10 || (s.ks s.mgmt.active).rejecting.isSome
    then .next s
    else
      let late := (List.range Config.nTiles).filter fun t => s.usable t && !(s.tile t).glost.reported
      .next (late.foldl (fun s t => s.modTile t fun x =>
        { x with glost := { x.glost with listed := true, reported := true }, held := true }) s).glostFinish

end Sys2Proof.Machine
end

