-- ==== Sys2Proof/Machine/Ring.lean ====
section
/-! DEFINITION. Work, load and completion rings (R232, R345, R349 to R355). -/

namespace Sys2Proof.Machine

/-- A command about ring `r`: nothing where the image defines no such ring. -/
def onRing (r : Nat) (s : State) (f : Ring → Out) : Out :=
  if 256 ≤ r then .fault .noSuchUnit else match tGet? s.rings r with
    | some x => f x
    | none => .next s

def Ring.slotSize (x : Ring) : Nat := 32 * x.esz
/-- Host address of slot n mod 2^LOG2CNT. -/
def Ring.slotAt (x : Ring) (n : Nat) : Nat := x.base + x.slotSize * (n % 2 ^ x.log2)

/-! ## Fetching and the engine index (R350, R351) -/

/-- The ring engine reads the next entry: RUNNING, entries written, fewer than 8 in delivery, no read out. -/
def State.ringFetch (s : State) (r : Nat) : State :=
  match tGet? s.rings r with
  | none => s
  | some x =>
    if x.kind ≠ 2 && x.state = .running && !x.stopping && !x.fetching && x.flight.length < 8 && x.n < x.hostIdx
        && s.portUp x.port then
      (s.modRing r fun x => { x with fetching := true }).putOut x.port [.read (x.slotAt x.n) x.slotSize]
    else s

/-- Write the engine index: at most once in a microsecond, and always when the ring falls idle (R350). -/
def State.ringIndex (s : State) (r : Nat) : State :=
  match tGet? s.rings r with
  | none => s
  | some x =>
    let idle := x.flight.isEmpty && x.hostIdx ≤ x.n
    let due : Bool := match x.lastIndexAt with
      | some a => a + Config.us 1 ≤ s.time
      | none => true
    if s.portUp x.port && x.state ≠ .down && (idle || due) then
      (s.modRing r fun x => { x with lastIndexAt := some s.time }).putOut x.port
        [.write (x.ctl + 4) (leBytes 4 x.index) false]
    else s

/-- A ring told to stop enters STOPPED when its entries in delivery have been answered (R355). -/
def State.ringSettle (s : State) (r : Nat) : State :=
  s.modRing r fun x =>
    if x.stopping && x.flight.isEmpty && !x.fetching then { x with state := .stopped, stopping := false } else x

/-- A host index is presented (R351): the entries written, compared with the count of fetched entries. -/
def State.hostIndex (s : State) (r : Nat) (v : Nat) : State :=
  match tGet? s.rings r with
  | none => s
  | some x =>
    if 2 ^ x.log2 < (v + 65536 - x.index % 65536) % 65536 then
      (s.modRing r fun x => { x with cause := 4 }).ringEvent r 4
    else
      (s.modRing r fun x => { x with hostIdx := max x.hostIdx (x.n + (v + 65536 - x.n % 65536) % 65536) }).ringFetch r

/-- HOST_DB r, through the ring's own port (R344, R351). -/
def execHostDoorbell (h r : Nat) (v : BitVec 32) (s : State) : Out :=
  onRing r s fun x =>
    if x.port ≠ h || x.kind = 2 || !s.portUp h then .next s
    else .next ((s.modRing r fun x => { x with prompt := true }).hostIndex r (bitsW v 0 16))

/-- A read of CTL word 0, every POLL_US or after a doorbell; a failed read faults the ring with cause 5 (R351, R355). -/
def execRingPoll (r : Nat) (idx : Option Nat) (s : State) : Out :=
  onRing r s fun x =>
    let due := x.pollUs ≠ 0 && x.lastPollAt + Config.us x.pollUs ≤ s.time
    if x.kind = 2 || x.state ≠ .running || !s.portUp x.port || !(x.prompt || due) then .next s
    else
      let s := s.modRing r fun x => { x with prompt := false, lastPollAt := s.time }
      match idx with
      | none => .next (s.ringFault r .faulted 5)
      | some v => .next (s.hostIndex r (v % 65536))

/-! ## The bulk mover as a sender (R220 to R227, R232, R347) -/

/-- The attachment tile by which a Pier sends to tile `t` (R347). -/
def State.pierTile (s : State) (h t : Nat) : Nat := (s.attachFor (.pcie h) t).getD 0

def State.modPni (s : State) (h : Nat) (f : Ni → Ni) : State := s.modPort h fun p => { p with ni := f p.ni }

/-- An operation for entry n of ring r, not yet numbered: its OPID is given when it leaves. -/
def State.pierOp (s : State) (r n : Nat) (k : RmoKind) (t : Nat) (a : BitVec 48) (len : Nat) (data : List Byte) : IssueOp :=
  { id := 16, kind := k, dest := .tile s.mgmt.engId t, vc := 0, addr := a, len := len, loc := 0, sub := 0, opnd := data, rb := 0,
    tag := mkTag 0 (BitVec.ofNat 12 n), entry := none, epoch := s.routes.epoch, ring := some (r, n) }

/-- A FLOW_RESET of the bulk mover for a tile (R352). -/
def State.pierReset (s : State) (h r t : Nat) : State :=
  s.modPni h (·.append { s.pierOp r 0 .flowReset t 0 0 [] with ring := none })

/-- The packet of an operation of the bulk mover (SRC_KIND 2). -/
def State.pierPacket (s : State) (h : Nat) (o : IssueOp) : Packet :=
  let t := o.dest.tileNo
  { op := Machine.rmoOp o.kind, dest := t, vc := 0, flits := flitsOf (Machine.rmoOp o.kind) o.len, len := o.len, opid := o.id, serial := o.serial,
    srcTile := s.pierTile h t, srcEng := s.mgmt.engId, srcKind := 2, addr := o.addr, tag := o.tag, data := o.opnd,
    deng := s.mgmt.engId, seng := s.mgmt.engId }

/-- A CREDIT_RET of the Pier: slots go back to the queue they are of. -/
def State.pierGiveBack (s : State) (h : Nat) (c : Credit) : State :=
  if c.slots = 0 then s else
  s.edgeSend (.pcie h) c.tile
    { creditRet s.mgmt.engId (s.pierTile h c.tile) c.queue c.gen c.tile c.eng 0 c.slots with srcKind := 2 }

/-- The lowest OPID, of 16, that no operation in flight has (Table 10.2). -/
def Ni.wireId (n : Ni) : Option Nat := tFree ((n.ops.filter (·.inFlight)).map fun o => (o.id, ())) 16

def State.setPop (s : State) (h k : Nat) (o : IssueOp) : State := s.modPni h fun n => { n with ops := n.ops.set k o }

/-- A delivery of a ring changes. -/
def State.modDelivery (s : State) (r n : Nat) (f : Delivery → Delivery) : State :=
  s.modRing r fun x => { x with flight := x.flight.map fun d => if d.n = n then f d else d }

/-- Operation `k` of the bulk mover is answered (R223). -/
def State.pierAnswered (s : State) (h k : Nat) (o : IssueOp) (c : Code) : State :=
  (s.modPni h fun n => { n with failed := if o.failsWith c && !n.failed.contains o.dest then o.dest :: n.failed else n.failed }).setPop
    h k { o with st := .answered c }

/-- A SEND of the bulk mover whose turn has come: it leaves with credits in hand, or asks for them, or waits for an entry of
the Pier's credit table (R232). -/
def State.pierCredits (s : State) (h k : Nat) (o : IssueOp) : State :=
  match (s.port h).ni.creditPlace o s.now s.mgmt.engId o.dest.tileNo with
  | none => s
  | some (cs, old) =>
    let s := s.modPni h fun n => { n with credits := cs }
    let s := match old with
      | some c => s.pierGiveBack h c
      | none => s
    match (s.port h).ni.credits.find? (·.isFor o) with
    | none => s
    | some c =>
      let n := slotsFor o.len
      match runs c.slots n with
      | j :: _ =>
        let m := runMask j n
        let s := s.modPni h fun n => n.modCredit o fun c => { c with slots := c.slots &&& ~~~m, used := s.now }
        (s.setPop h k { o with st := .sent s.now, epoch := s.routes.epoch }).edgeSend (.pcie h) o.dest.tileNo
          { s.pierPacket h o with sub := BitVec.ofNat 4 j, gen := c.gen, slots := m, queue := c.queue }
      | [] =>
        let p := { s.pierPacket h o with op := .creditReq, flits := 1, len := 0, addr := 0, data := [],
                                         gen := c.gen, slots := c.slots, run := n, queue := c.queue }
        let s := s.modPni h fun n => n.modCredit o fun c => { c with slots := 0 }
        let s := match o.ring with
          | some (r, i) => s.modDelivery r i fun d => { d with since := some (d.since.getD s.time) }
          | none => s
        (s.setPop h k { o with st := .requested, epoch := s.routes.epoch }).edgeSend (.pcie h) o.dest.tileNo p

/-- Operation `k` of the bulk mover takes its turn (R220). -/
def State.pierTurn (s : State) (h k : Nat) : State :=
  let n := (s.port h).ni
  match n.ops[k]? with
  | none => s
  | some o =>
    if !o.waiting then s else
    match n.turn s.routes.epoch (n.ops.take k) o with
    | .wait => s
    | .fail c => s.pierAnswered h k o c
    | .reset => (s.modPni h (·.flowReset o.dest (.keystone 0))).pierAnswered h k o .ok
    | .go => match n.wireId with
      | none => s
      | some id =>
        let o := { o with id := id }
        if (s.attachFor (.pcie h) o.dest.tileNo).isNone then s.pierAnswered h k o .unreachable
        else if o.kind = .send then s.pierCredits h k o
        else (s.setPop h k { o with st := .sent s.now, epoch := s.routes.epoch }).edgeSend (.pcie h) o.dest.tileNo
          (s.pierPacket h o)

def State.pierTurns (s : State) (h : Nat) : State :=
  (List.range (s.port h).ni.ops.length).foldl (fun s k => s.pierTurn h k) s

/-! ## Reports to the rings (R222, R224, R350, R352) -/

/-- A ring keeps only the operations of entries before `n`: those of later ones that have not left are dropped, and those that
have left are reported to no ring. -/
def State.detach (s : State) (h r n : Nat) : State :=
  let past := fun (o : IssueOp) => match o.ring with
    | some (a, b) => a = r && n ≤ b
    | none => false
  let cut := fun (o : IssueOp) => if past o then { o with ring := none } else o
  s.modPni h fun x => { x with ops := (x.ops.filter fun o => !(past o && o.unsent)).map cut }

/-- The delivery fails: later entries fail with it, and the ring is HELD or FAULTED at the failed entry (R352). -/
def State.deliveryFails (s : State) (r : Nat) (d : Delivery) (st : RingState) (c : Nat) : State :=
  let s := (s.modRing r fun x =>
    { x with flight := x.flight.filter fun e => e.n < d.n, n := d.n, index := d.n % 2 ^ 32, fetching := false,
             heldOn := d.dest, resets := true, stopping := false })
  let s := s.detach ((tGet? s.rings r).elim 0 (·.port)) r d.n
  if st = .held then s.modRing r fun x => { x with state := .held } else s.ringFault r st c

/-- An operation of a delivery is reported OK; with the last one the entry is complete (R350). -/
def State.deliveryOk (s : State) (r : Nat) (d : Delivery) (serial : Nat) : State :=
  let left := d.left.filter (· ≠ serial)
  if left ≠ [] then s.modDelivery r d.n fun d => { d with left := left }
  else ((s.modRing r fun x =>
    { x with flight := x.flight.filter fun e => e.n ≠ d.n, index := (x.index + 1) % 2 ^ 32 }).ringIndex r).ringFetch r

/-- What a reported code does to the ring: SPAN_RESET and READER_GONE hold it, a stalled SEND is cause 7, any other failure
cause 6 (R352). -/
def State.ringReport (s : State) (o : IssueOp) (c : Code) : State :=
  match o.ring with
  | none => s
  | some (r, n) => match (tGet? s.rings r).bind fun x => x.flight.find? (·.n = n) with
    | none => s
    | some d =>
      if !c.isFailure then s.deliveryOk r d o.serial
      else if c = .spanReset || c = .readerGone then s.deliveryFails r d .held 0
      else s.deliveryFails r d .faulted (if c = .qfullTimeout then 7 else 6)

/-- An operation of the bulk mover, removed from its list, is reported: its flow stops with a failure (R224), and its ring is
told. -/
def State.pierReport (s : State) (h : Nat) (o : IssueOp) (c : Code) : State :=
  let c := if o.doomed then .flowStopped else c
  let s :=
    if c.isFailure && c ≠ .flowStopped then
      let raise := (s.port h).ni.stopRaises
      let s := s.modPni h (·.stop o c)
      if raise then s.event 0x0404 4 (flowArg o.dest c) (unit := h) else s
    else s
  s.ringReport o c

def State.pierReports : Nat → State → Nat → State
  | 0, s, _ => s
  | fuel + 1, s, h =>
    match firstReport [] (s.port h).ni.ops with
    | none => s
    | some (o, c, rest) => ((s.modPni h fun n => { n with ops := rest }).pierReport h o c).pierReports fuel h

/-- Let the bulk mover do all it can do now. -/
def State.pierLoop : Nat → State → Nat → State
  | 0, s, _ => s
  | fuel + 1, s, h =>
    let s' := (s.pierTurns h).pierReports (s.port h).ni.ops.length h
    if (s'.port h).ni.ops = (s.port h).ni.ops then s' else s'.pierLoop fuel h

def State.pierPump (s : State) (h : Nat) : State := s.pierLoop (2 * (s.port h).ni.ops.length + 1) h

/-- Let a ring do what it can: its Pier's operations, the next fetch, the stop. -/
def State.ringPump (s : State) (r : Nat) : State :=
  ((s.pierPump ((tGet? s.rings r).elim 0 (·.port))).ringFetch r).ringSettle r

/-! ## What a bulk mover does with time (R218, R232) -/

/-- A request answered RETRY is sent again after 64 cycles; an entry that no SEND has used for 4,096 cycles gives back its
slots (R218, R232). -/
def State.pierTimer (s : State) (h : Nat) : State :=
  let n := (s.port h).ni
  let now := s.now
  let again : IssueOp → Bool := fun o => match o.st with
    | .retry a => decide (a + 64 ≤ now)
    | _ => false
  let idle := n.credits.filter fun c => c.slots ≠ 0 && c.used + 4096 ≤ now
  let kept := n.credits.filterMap fun c =>
    if c.slots ≠ 0 && c.used + 4096 ≤ now then (if n.sendWaits c then some { c with slots := 0 } else none) else some c
  let s := if idle.isEmpty then s else idle.foldl (fun s c => s.pierGiveBack h c) (s.modPni h fun n => { n with credits := kept })
  if n.ops.any again then
    (s.modPni h fun n => { n with ops := n.ops.map fun o => if again o then { o with st := .waiting } else o }).pierPump h
  else s

/-- The bulk movers of all PCI Express Piers. -/
def State.pierTimers (s : State) : State := s.ports.foldl (fun s e => s.pierTimer e.1) s

/-! ## An entry arrives (R349, R350) -/

/-- The fields of a ring entry, from its bytes. -/
def entryWord (bs : List Byte) (i : Nat) : Nat := leNat ((bs.drop (4 * i)).take 4)

/-- A load entry: window, offset, tile, landing offset, count, signal (R349). -/
structure LoadEntry where
  win : Nat
  off : Nat
  tile : Nat
  land : Nat
  count : Nat
  sigOff : Nat
  sigEn : Bool
  zeros : Bool
  deriving DecidableEq, Repr

def loadEntry (bs : List Byte) : LoadEntry :=
  let w := entryWord bs
  { win := bitsN (w 3) 24 5, off := w 1 + bitsN (w 2) 0 8 * 2 ^ 32, tile := bitsN (w 3) 0 21, land := bitsN (w 4) 0 16,
    count := bitsN (w 5) 0 17, sigOff := bitsN (w 6) 0 16, sigEn := bitsN (w 6) 16 1 = 1,
    zeros := bitsN (w 2) 8 24 = 0 && bitsN (w 3) 21 3 = 0 && bitsN (w 3) 29 3 = 0 && bitsN (w 4) 16 16 = 0
      && bitsN (w 5) 17 15 = 0 && bitsN (w 6) 17 15 = 0 && w 7 = 0 }

/-- The address of a window offset (Table 01.3, space 4). -/
def winAddr (w off : Nat) : BitVec 48 := BitVec.ofNat 48 (4 * 2 ^ 45 + w * 2 ^ 40 + off)

/-- Is the load entry refused (R350)? -/
def State.loadBad (s : State) (h : Nat) (e : LoadEntry) : Bool :=
  !e.zeros || e.count = 0 || 65536 < e.count || 0x10000 < e.land + e.count || Config.nTiles ≤ e.tile
    || !s.winAdmits h { op := .get, addr := winAddr e.win e.off, len := e.count }

/-- Is the entry refused (R350)? -/
def State.entryBad (s : State) (x : Ring) (bs : List Byte) : Bool :=
  let hd := entryWord bs 0
  let len := bitsN hd 16 9
  bitsN hd 25 7 ≠ 0 || (if x.kind = 1 then len ≠ 32 || s.loadBad x.port (loadEntry bs) else len < 4 || x.slotSize < len)

/-- The operations of a load: PUTs of 256 bytes in ascending order, then the SIGNAL (R350). -/
def State.loadOps (s : State) (r n : Nat) (e : LoadEntry) (bs : List Byte) : List IssueOp :=
  ((List.range (ceilDiv bs.length 256)).map fun i =>
    let d := (bs.drop (256 * i)).take 256
    s.pierOp r n .put e.tile (padAddr e.tile (e.land + 256 * i)) d.length d)
  ++ (if e.sigEn then [s.pierOp r n .signal e.tile (padAddr e.tile e.sigOff) 4 []] else [])

/-- Reads of host memory in pieces of 4,096 bytes (R295, R350). -/
def reads4k (a n : Nat) : List HostReq := (List.range (ceilDiv n 4096)).map fun i => .read (a + 4096 * i) (min 4096 (n - 4096 * i))

/-- Bytes of host memory as a read brought them, by host address. -/
def readAt (bs : List (Nat × Byte)) (a n : Nat) : List Byte := (List.range n).map fun i => tGet 0 bs (a + i)

/-- Operations of a delivery join the bulk mover's in issue order. -/
def State.issueDelivery (s : State) (r : Nat) (x : Ring) (dest : Nat) (os : List IssueOp) : State :=
  let first := (s.port x.port).ni.serial
  let s := s.modPni x.port fun n => os.foldl Ni.append n
  s.modRing r fun y => { y with flight := y.flight ++
    [{ n := x.n, work := x.kind = 0, dest := dest, left := (List.range os.length).map (first + ·) }] }

/-- Entry n of a ring is delivered (R350). -/
def State.deliver (s : State) (r : Nat) (x : Ring) (img : List (Nat × Byte)) (bs : List Byte) : State :=
  let s := s.modRing r fun x => { x with n := x.n + 1 }
  if x.kind = 0 then
    let d := bs.take (bitsN (entryWord bs 0) 16 9)
    s.issueDelivery r x x.target [s.pierOp r x.n .send x.target (queueAddr x.target x.queue) d.length d]
  else
    let e := loadEntry bs
    let base := match tGet? s.windows e.win with
      | some w => w.base
      | none => 0
    (s.putOut x.port (reads4k (base + e.off) e.count)).issueDelivery r x e.tile
      (s.loadOps r x.n e (readAt img (base + e.off) e.count))

/-- The read of slot n has brought the entry, with the host bytes a load reads; a failed read faults the ring
(R349, R350, R355). -/
def execRingEntryFetched (r : Nat) (img : HostRead) (s : State) : Out :=
  onRing r s fun x =>
    if !x.fetching then .next s else
    let s := s.modRing r fun x => { x with fetching := false }
    match img with
    | .failed => .next (s.ringFault r .faulted 5)
    | .bytes m _ =>
      let bs := readAt m (x.slotAt x.n) x.slotSize
      if bitsN (entryWord bs 0) 0 16 ≠ (x.n + 1) % 65536 then .next (s.ringFault r .faulted 1)
      else if s.entryBad x bs then
        let s := (s.modRing r fun x => { x with n := x.n + 1, index := (x.index + 1) % 2 ^ 32, cause := 2 }).ringEvent r 2
        .next ((s.ringIndex r).ringPump r)
      else .next ((s.deliver r x m bs).ringPump r)

/-! ## Answers to deliveries (R219, R232, R352) -/

/-- Slots that a receiver returns to the Pier: its entry for the channel takes them, which is no use of it, or they go back
(R231, R232). -/
def State.pierSlots (s : State) (h : Nat) (p : Packet) (f : Credit → Credit := id) : State :=
  if (s.port h).ni.credits.any (·.channel p.srcEng p.srcTile p.queue) then
    s.modPni h fun n => (n.addCredit p.srcEng p.srcTile p.queue p.gen p.slots f).wake
  else s.pierGiveBack h ⟨p.srcEng, p.srcTile, p.queue, p.gen, p.slots, 0⟩

/-- The answer to operation `k` of the bulk mover: RETRY is noted, anything else is its answer (R218). -/
def State.pierTakes (s : State) (h k : Nat) (o : IssueOp) (p : Packet) : State :=
  if p.code = .retry then s.setPop h k { o with st := .retry s.now } else s.pierAnswered h k o p.code

/-- An answer or credit packet reaches the Pier; an answer to no operation in flight is discarded (R219). -/
def State.pierPacketIn (s : State) (h : Nat) (p : Packet) : State :=
  let ops := (s.port h).ni.ops
  if p.op = .creditRet then s.pierSlots h p
  else if p.op = .creditGrant then
    if ops.any (·.grantee p) then s.pierSlots h p fun c => { c with used := s.now }
    else s.pierGiveBack h ⟨p.srcEng, p.srcTile, p.queue, p.gen, p.slots, 0⟩
  else match answered p ops with
    | none => s
    | some k => match ops[k]? with
      | some o => if answerFits o p then s.pierTakes h k o p else s
      | none => s

/-- Why a delivery's operation fails by itself: its SEND has waited WAIT_MS for credits (R352, cause 7), or an operation has
been unanswered for 67,108,864 cycles (R219). -/
def State.overdue (s : State) (x : Ring) (d : Delivery) (o : IssueOp) : Option Code :=
  if !d.left.contains o.serial then none
  else match o.st with
    | .sent a => if a + 67108864 ≤ s.now then some .responseTimeout else none
    | .requested | .retry _ => match d.since with
      | some a => if a + Config.ms x.waitMs ≤ s.time then some .qfullTimeout else none
      | none => none
    | _ => none

/-- An answer or credit packet reaches the Pier of ring r; with no packet, an operation of delivery n has waited too long
(R219, R232, R352). -/
def execRingDeliveryAnswer (r n : Nat) (a : Option Packet) (s : State) : Out :=
  onRing r s fun x =>
    match a with
    | none => match x.flight.find? (·.n = n) with
      | none => .next s
      | some d =>
        let ops := (s.port x.port).ni.ops
        match ops.findIdx? fun o => (s.overdue x d o).isSome with
        | none => .next s
        | some k => match ops[k]? with
          | none => .next s
          | some o => .next ((s.pierAnswered x.port k o ((s.overdue x d o).getD .ok)).ringPump r)
    | some p =>
      if !(p.op = .resp || p.op = .creditGrant || p.op = .creditRet) then .next s
      else match s.atPier x.port p with
        | none => .next s
        | some s => .next ((s.pierPacketIn x.port p).ringPump r)

/-- A ring goes on: the flow of the delivery that failed last is reset first (R352; DEDUCED for RESUME and RESTART, log 82). -/
def State.ringGoes (s : State) (h r : Nat) : State :=
  match tGet? s.rings r with
  | some x =>
    let s := s.modRing r fun x => { x with state := .running, resets := false }
    if x.resets then s.pierReset h r x.heldOn else s
  | none => s

/-- The span of a HELD ring's target is RUNNING again: FLOW_RESET, and delivery from the failed entry (R352). -/
def execRingHeldResume (r : Nat) (s : State) : Out :=
  onRing r s fun x =>
    match s.spanOf x.heldOn with
    | some n =>
      if x.state = .held && (s.span n).state = .running then .next ((s.ringGoes x.port r).ringPump r) else .next s
    | none => .next s

/-! ## Ring control (R355) -/

/-- The ring's registers exist on its own port, and one command bit is set: bit `b` of HOST_RING_CTRL. -/
def Ring.commanded (x : Ring) (h b : Nat) (v : BitVec 32) : Bool := x.port = h && bitsW v 0 3 = 2 ^ b

/-- RESUME and RESTART are accepted in HELD, FAULTED, DOWN and STOPPED. -/
def Ring.resumable (x : Ring) : Bool := x.state = .held || x.state = .faulted || x.state = .down || x.state = .stopped

/-- STOP ends fetching. -/
def execRingStop (h r : Nat) (v : BitVec 32) (s : State) : Out :=
  onRing r s fun x =>
    if x.commanded h 0 v && s.portUp h && x.state = .running then
      .next ((s.modRing r fun x => { x with stopping := true }).ringSettle r)
    else .next s

/-- RESUME continues from INDEX. -/
def execRingResume (h r : Nat) (v : BitVec 32) (s : State) : Out :=
  onRing r s fun x =>
    if x.commanded h 1 v && s.portUp h && x.resumable then
      .next ((s.ringGoes h r).ringPump r)
    else .next s

/-- RESTART sets n and k to 0, and 0 is written to CTL word 1. -/
def execRingRestart (h r : Nat) (v : BitVec 32) (s : State) : Out :=
  onRing r s fun x =>
    if x.commanded h 2 v && s.portUp h && x.resumable then
      .next ((((s.detach h r 0).modRing r fun x => { x with n := 0, index := 0, hostIdx := 0, flight := [] }).ringGoes h r).putOut h
        [.write (x.ctl + 4) (leBytes 4 0) false])
    else .next s

/-! ## Completion rings (R353, R354) -/

/-- Send a ring's MSI-X vector, unless one was sent within MOD_US (R354). -/
def State.announce (s : State) (r : Nat) : State :=
  match tGet? s.rings r with
  | none => s
  | some x => match x.msix with
    | none => s
    | some v =>
      let due : Bool := match x.lastMsix with
        | some a => a + Config.us x.modUs ≤ s.time
        | none => true
      if due then (s.modRing r fun x => { x with lastMsix := some s.time, unannounced := false }).sendMsix x.port v
      else s.modRing r fun x => { x with unannounced := true }

/-- The k-th PUT of a completion ring is written: body, trailer, OK, k + 1 to CTL word 1, vector (R353, R354). -/
def State.complete (s : State) (r : Nat) (x : Ring) (p : Packet) : State :=
  let k := x.n
  let a := x.slotAt k
  let trailer := leBytes 4 ((k + 1) % 2 ^ 32) ++ leBytes 4 p.srcTile
  let s := s.putOut x.port [.write a p.data false, .write (a + x.body) trailer false]
  let s := s.pierAnswer x.port p .ok
  let s := s.putOut x.port [.write (x.ctl + 4) (leBytes 4 (k + 1)) false]
  (s.modRing r fun x => { x with n := k + 1, index := (k + 1) % 2 ^ 32, full := none }).announce r

/-- Does k − (host index), modulo 2^32, equal the number of slots (R353, step 1)? -/
def Ring.isFull (x : Ring) : Bool := (x.n % 2 ^ 32 + 2 ^ 32 - x.hostIdx % 2 ^ 32) % 2 ^ 32 = 2 ^ x.log2

/-- A PUT to a ring window reaches its Pier: it is written, or waits for room. One PUT of a ring is served at a time. -/
def execCompletionRingPut (h : Nat) (p : Packet) (s : State) : Out :=
  onPort h s fun s =>
    if !s.portUp h then .next s
    else match s.ringPut p with
      | none => .next s
      | some r => match tGet? s.rings r, s.atPier h p with
        | some x, some s' =>
          if x.port ≠ h || x.full.isSome || x.state ≠ .running then .next s
          else if x.isFull then .next (s'.modRing r fun x => { x with full := some (p, s.time), lastPollAt := s.time })
          else .next (s'.complete r x p)
        | _, _ => .next s

/-- The host index of a completion ring is read again, each microsecond in which a PUT waits (R353). -/
def execCompletionRingPoll (r : Nat) (idx : Nat) (s : State) : Out :=
  onRing r s fun x =>
    match x.full with
    | none => .next s
    | some (p, _) =>
      if x.kind ≠ 2 || s.time < x.lastPollAt + Config.us 1 || !s.portUp x.port then .next s
      else
        let x' := { x with lastPollAt := s.time, hostIdx := idx % 2 ^ 32 }
        let s := s.modRing r fun _ => x'
        if x'.isFull then .next s else .next (s.complete r x' p)

/-- A PUT has waited WAIT_MS on a full ring: ADDRESS_FAULT, cause 3; the ring stays RUNNING (R353). -/
def execCompletionRingFull (r : Nat) (s : State) : Out :=
  onRing r s fun x =>
    match x.full with
    | some (p, a) =>
      if a + Config.ms x.waitMs ≤ s.time then
        .next (((s.modRing r fun x => { x with full := none, cause := 3 }).ringEvent r 3).pierAnswer x.port p .addressFault)
      else .next s
    | none => .next s

/-- The moderation interval ends with trailers unannounced: the vector is sent (R354). -/
def execMsixModeration (r : Nat) (s : State) : Out :=
  onRing r s fun x =>
    let due : Bool := match x.lastMsix with
      | some a => a + Config.us x.modUs ≤ s.time
      | none => true
    if x.unannounced && due then .next (s.announce r) else .next s

end Sys2Proof.Machine
end

