-- ==== Sys2Proof/Machine/Recovery.lean ====
section
/-! DEFINITION. The active Keystone in service and the replacement of an image: watchdog and Keystone reset, dead links and
tiles, route changes, recovery registers and lock area (R256, R294 to R297, R378 to R384, R411, R413). -/

namespace Sys2Proof.Machine

/-! ## Keystone reset (R256, R384) -/

/-- The watchdog of the active Keystone expires: during start-up the role passes or the engine enters SAFE; in service the
Keystone is reset, or, on a second expiry within 60 s of global time, the engine stops. -/
def execKeystoneWatchdog (s : State) : Out :=
  if s.mgmt.st = .bisque || s.mgmt.st = .glost then .next (s.loseActive .bisque 3)
  else if s.mgmt.st = .rom && s.mgmt.elected && !s.mgmt.recovery then .next (s.loseActive .rom 3)
  else if !s.inService || s.mgmt.ksReset.isSome then .next s
  else
    let again : Bool := match s.mgmt.lastKsReset with
      | some a => s.clk.master < a + 60000000000
      | none => false
    if again then .next (s.logKeystone 3 2).halt
    else .next ((s.modMgmt fun m =>
      { m with ksReset := some s.time, lastKsReset := some s.clk.master, ksResets := satAdd 255 m.ksResets 1 }).logKeystone 2 1)

/-- A Keystone reset ends: the SRAM copy of the firmware is compared with its digest; span watchdogs restart at 0 and the
work that fell due begins. -/
def execKeystoneResetDone (s : State) : Out :=
  if s.mgmt.ksReset.isNone then .next s
  else if !Config.firmwareOk s.mgmt.ksResets then .next (s.logKeystone 3 4).halt
  else
    let s := s.modMgmt fun m => { m with ksReset := none }
    let zero := fun (x : Span) => { x with wdog := 0 }
    let s : State := { s with spans := s.spans.map fun (e : Nat × Span) => (e.1, zero e.2) }
    .next s.beginAll

/-- A Keystone reset that has not ended within 2 s. -/
def execKeystoneResetTimeout (s : State) : Out :=
  match s.mgmt.ksReset with
  | some a => if a + Config.sec 2 ≤ s.time then .next (s.logKeystone 3 3).halt else .next s
  | none => .next s

/-! ## Dead links and tiles (R378) -/

/-- The links of a tile that the live map does not list. -/
def State.mapLinks (s : State) (t : Nat) : List Dir :=
  allDirs.filter fun d =>
    let l := linkOf t d
    let other : Bool := match neighbour t d with
      | some u => s.usable u
      | none => attached t d
    other && !s.map.recs.any fun r => match r with
      | .link a b _ => a = l.1 && b = l.2
      | _ => false

/-- Has every link of the tile that was live been declared dead? -/
def State.cutOff (s : State) (t : Nat) : Bool := (s.mapLinks t).all fun d => (s.tile t).rtr.dead.getLsbD d.code

/-- A dead link's end tile: retired where it is cut off, else probed. -/
def State.judgeTile (s : State) (t : Nat) : State :=
  if !s.usable t then s
  else if s.cutOff t then s.retire t 4
  else { s with routes := { s.routes with probes := tPut s.routes.probes t s.time } }

/-- A router's report of a dead link reaches the Keystone (R378, R380). -/
def execLinkDeadReport (t : Nat) (d : Dir) (s : State) : Out :=
  onTile t s fun s =>
    if s.mgmt.ksReset.isSome || !s.routes.deadLinks.contains (t, d) then .next s
    else
      let ends := t :: (match neighbour t d with | some u => [u] | none => [])
      let s := { s with routes := { s.routes with deadLinks := s.routes.deadLinks.filter (· ≠ (t, d)) } }
      let s := ends.foldl (fun s u => s.judgeTile u) s
      .next (s.retireLink t d).failCutOff

/-- A probed tile has not answered within 100 µs: it is retired. -/
def execProbeTimeout (t : Nat) (s : State) : Out :=
  onTile t s fun s =>
    match tGet? s.routes.probes t with
    | some a =>
      if a + Config.us 100 ≤ s.time then
        .next ({ s with routes := { s.routes with probes := tDel s.routes.probes t } }.retire t 4).failCutOff
      else .next s
    | none => .next s

/-! ## Route changes in service (R210, R380) -/

/-- The routers that border what the last route change did not know as listed turn traffic away from it (R210, step 1). -/
def State.markBorders (s : State) : State :=
  let mark := fun (s : State) (t : Nat) (d : Dir) => s.modTile t (·.modRtr fun r =>
    { r with blocked := r.blocked ||| BitVec.ofNat 4 (2 ^ d.code) })
  (s.map.recs.filter fun r => !s.routes.recs.contains r).foldl (fun s r => match r with
    | .tile t _ _ => allDirs.foldl (fun s d => match neighbour t d with
      | some u => mark s u d.opposite
      | none => s) s
    | .link t k _ =>
      let d : Option Dir := if k = 0 then some .east else if k = 1 then some .north else outDir t
      match d with
      | none => s
      | some d => (match neighbour t d with | some u => mark (mark s t d) u d.opposite | none => mark s t d)
    | .field f _ _ => s.ringBits f) s

/-- The first step of a route change: a tile whose table would need more than 32 entries is retired with it, and the new
link-state bits are written (R210, R380). -/
def State.changeMarked (s : State) (marks : List (Nat × BitVec 4)) (tables : List (Nat × List DetourEntry)) : State :=
  let s := (tables.filter fun e => 32 < e.2.length).foldl (fun s e => s.retire e.1 5) s
  (marks.foldl (fun s m => s.routerConfig m.1 (.linkState m.2)) s).markBorders

/-- The routers when they hold the new tables (R210, step 2). -/
def State.withTables (s : State) (tables : List (Nat × List DetourEntry)) : State :=
  tables.foldl (fun s e => s.modTile e.1 (·.modRtr fun r => { r with detour := e.2 })) s

/-- A route change begins when a retirement is due: the new link-state bits are written, and the tables are on their way. None
begins before the last is complete, during a Keystone reset (R384), or with tables outside R445's bounds. -/
def execRouteChange (marks : List (Nat × BitVec 4)) (tables : List (Nat × List DetourEntry)) (s : State) : Out :=
  if s.routes.change.isSome || s.mgmt.ksReset.isSome || !s.routes.fold then .next s
  else if marks.any (fun m => Config.nTiles ≤ m.1) || tables.any fun m => Config.nTiles ≤ m.1 then .fault .noSuchTile
  else
    let u := s.changeMarked marks tables
    let kept := tables.filter fun e => e.2.length ≤ 32
    if !(u.withTables kept).routesHold then .next s
    else .next { u with routes := { u.routes with
      change := some ⟨kept, [], (u.routes.epoch + 1) % 4, [], u.map.recs⟩, fold := false } }

/-! ## Replacing an image (R294 to R297, R413) -/

def State.rcvPhase (s : State) (k : Side) (p : RcvPhase) : State :=
  let now := s.time
  s.modKs k fun x => { x with rcv := { x.rcv with phase := p, progress := 0, since := now } }

/-- The Keystone reads the image from host memory through the port that received the GO, in requests of 4,096 bytes (R295). -/
def State.rcvReads (s : State) (k : Side) : State :=
  let r := (s.ks k).rcv
  s.putOut r.port (reads4k r.addr.toNat r.len)

/-- The recovery registers are presented on the ports of the Keystone's own edge (R294). -/
def State.rcvPort (s : State) (k : Side) (h : Nat) : Bool := h < 4 && portSide h = k && (s.port h).linkUp

/-- KST_RCV_CTRL's bits. -/
def rcvKey (v : Word) : Bool := bitsW v 16 16 = 0xF1A5

/-- Are ADDR and LEN valid? -/
def Rcv.rangeOk (r : Rcv) : Bool :=
  r.addr.toNat % 4096 = 0 && 8192 ≤ r.len && r.len ≤ 67108864 && r.len % 4096 = 0

/-- GO (R295, R296). -/
def execRcvGo (k : Side) (h : Nat) (v : BitVec 32) (s : State) : Out :=
  onPort h s fun s =>
    let r := (s.ks k).rcv
    let stOk := (s.mgmt.st = .rom && s.mgmt.recovery) || s.inService
    let phOk := r.phase = .idle || r.phase = .done || r.phase = .failed
    if !s.rcvPort k h || !rcvKey v || !bitW v 8 || bitW v 9 || !stOk || !phOk then .next s
    else
      let s := (s.modKs k fun x => { x with rcv := { x.rcv with cause := 0, port := h } }).rcvPhase k .checking
      .next (if r.rangeOk then s.rcvReads k else s.rcvFail k 17)

/-- ABORT, in CHECKING alone (R296). -/
def execRcvAbort (k : Side) (v : BitVec 32) (s : State) : Out :=
  if rcvKey v && bitW v 9 && !bitW v 8 && (s.ks k).rcv.phase = .checking then .next (s.rcvFail k 20) else .next s

/-- An image in host memory: its bytes that are not 0xFF, from offset 0. -/
def hostImage (m : List (Nat × Byte)) (addr len : Nat) : Mem := mPutBytes erased [] 0 (readAt m addr len)

/-- The Keystone has read the image and applied steps 1 to 6 (R295, step 1). -/
def execRcvCheckDone (k : Side) (img : HostRead) (s : State) : Out :=
  let r := (s.ks k).rcv
  if r.phase ≠ .checking then .next s
  else match img with
    | .failed => .next (s.rcvFail k 16)
    | .bytes m _ =>
      let x := hostImage m r.addr.toNat r.len
      let c := imageCause x r.len s.sgr.secverDev s.mgmt.feedId
      if c ≠ 0 then .next (s.rcvFail k c)
      else .next ((s.modKs k fun y => { y with rcv := { y.rcv with digest := imgDigest x, secver := hdrSecver x } }).rcvPhase
        k .erasing)

/-- The 64 KiB blocks that LEN covers, and the status sector, are erased (R295, step 2). After a failure the image area holds
no image (log 23). -/
def execRcvEraseDone (k : Side) (ok : Bool) (s : State) : Out :=
  let r := (s.ks k).rcv
  if r.phase ≠ .erasing then .next s
  else
    let s := s.modKs k fun x => { x with flash := eraseFlash (eraseFlash x.flash 0 (65536 * ceilDiv r.len 65536)) statusSector 65536 }
    .next (if ok then (s.rcvPhase k .programming).rcvReads k else s.rcvFail k 18)

/-- The image, read again from host memory, has been programmed from byte 0 (R295, step 3). -/
def execRcvProgramDone (k : Side) (img : HostRead) (ok : Bool) (s : State) : Out :=
  let r := (s.ks k).rcv
  if r.phase ≠ .programming then .next s
  else match img with
    | .failed => .next (s.rcvFail k 16)
    | .bytes m _ =>
      if !ok then .next (s.rcvFail k 18)
      else
        let s := s.modKs k fun x => { x with flash := mPutBytes erased x.flash 0 (readAt m r.addr.toNat r.len) }
        .next (s.rcvPhase k .readback)

/-- Bits `a` to `b − 1` of a lock area, programmed. -/
def lockBits (a b : Nat) : BitVec 256 := BitVec.ofNat 256 (2 ^ b - 2 ^ a)

/-- A Keystone programs its own lock area up to a version (R413). -/
def Keystone.programLock (x : Keystone) (v : Nat) : Keystone :=
  let a := lockVersion x.lock
  if a < v then { x with lock := x.lock ||| lockBits a v } else x

/-- Read-back, then the lock area of both flashes (R295, step 4; R413). `ownOk` and `otherOk` say whether a program of the
lock area succeeded. -/
def execRcvReadbackDone (k : Side) (ownOk otherOk : Bool) (s : State) : Out :=
  let x := s.ks k
  let r := x.rcv
  if r.phase ≠ .readback then .next s
  else
    let c := imageCause x.flash 67108864 s.sgr.secverDev s.mgmt.feedId
    if imgDigest x.flash ≠ r.digest then .next (s.rcvFail k 19)
    else if c ≠ 0 then .next (s.rcvFail k c)
    else if r.secver ≤ lockVersion x.lock then .next (s.rcvPhase k .done)
    else if !ownOk then .next (s.rcvFail k 18)
    else
      let s := s.modKs k (·.programLock r.secver)
      let need := lockVersion (s.ks k.other).lock < r.secver
      let s := if need && otherOk then s.modKs k.other (·.programLock r.secver) else s
      let s := s.modSgr fun g => { g with lockSplit := lockVersion s.south.lock ≠ lockVersion s.north.lock }
      .next (s.rcvPhase k .done)

end Sys2Proof.Machine
end

