-- ==== Sys2Proof/Machine/Registers.lean ====
section
/-! DEFINITION. Writes to register fields without a behaviour of their own (R9, R62, R63, R294, R344). -/

namespace Sys2Proof.Machine

/-- The word of an MSI-X table as it keeps what is written: of a vector control word the mask bit alone. -/
def msixWord (i : Nat) (v : Word) : Word := if i % 4 = 3 then v &&& 1 else v

/-- A write to word `i` of a port's MSI-X table; a vector unmasked while its pending bit is set is sent (R344, R354). -/
def State.msixWrite (s : State) (h i : Nat) (v : Word) : State :=
  let s := s.modPort h fun p => { p with msix := tPut p.msix i (msixWord i v) }
  let n := i / 4
  let p := s.port h
  if p.maskedVec n || !p.pendBits.getLsbD n then s
  else s.modPort h fun p =>
    { p with pendBits := p.pendBits &&& ~~~(BitVec.ofNat 64 (2 ^ n)), out := p.out ++ [.msix n] }

/-- A recovery register of the port's edge: the address and the 27-bit length (Table 13.6). -/
def Rcv.write (r : Rcv) (off : Nat) (v : Word) : Rcv :=
  if off = 0xFF00 then { r with addr := (r.addr &&& 0xFFFFFFFF00000000) ||| v.zeroExtend 64 }
  else if off = 0xFF04 then { r with addr := (r.addr &&& 0xFFFFFFFF) ||| (v.zeroExtend 64 <<< 32) }
  else if off = 0xFF08 then { r with len := bitsW v 0 27 }
  else r

/-- A 32-bit write to BAR2: the MSI-X table and the plain recovery registers; a read-only, reserved or unlisted offset takes
no effect, and an offset that names an action has a command of its own (R9, R344). -/
def State.bar2Write (s : State) (h off : Nat) (v : Word) : State :=
  if !(s.port h).linkUp || off % 4 ≠ 0 then s
  else if 0x8000 ≤ off && off < 0x8400 then s.msixWrite h ((off - 0x8000) / 4) v
  else s.modKs (portSide h) fun k => { k with rcv := k.rcv.write off v }

/-- A write to a register field with no behaviour of its own: its access type, clamp or write-1-to-clear rule decides
(R9, R63). The status window takes no write (R420). -/
def execRegisterWrite (r : RegRef) (v : BitVec 32) (s : State) : Out :=
  match r with
  | .tile t off ks =>
    onTile t s fun s =>
      if !regListed off || (regStore off && (s.seq t).state ≠ .stopped) then .next s else .next (s.regWrite t off v ks)
  | .bar2 h off => onPort h s fun s => .next (s.bar2Write h off v)
  | .window _ => .next s

end Sys2Proof.Machine
end

