-- ==== Sys2Proof/Machine/Sagger.lean ====
section
/-! DEFINITION. The Sagger as an SPDM responder: certificates, measurements, sessions and IDE keys (R415 to R420). -/

namespace Sys2Proof.Machine

/-- KST_STATE.STATE (Table 12.1). -/
def EngState.code : EngState → Nat
  | .off => 0 | .rom => 1 | .bisque => 2 | .glost => 3 | .ready => 4 | .degraded => 5 | .safe => 6 | .halted => 7
  | .deepOff => 8

/-- Can a request reach the Sagger by the transport (R417, R418, R438)? -/
def State.sgrServes (s : State) (tr : Transport) : Bool :=
  !(s.mgmt.st = .off || s.mgmt.st = .deepOff) && (match tr with
    | .sideband => true
    | .port h => h < 4 && (s.port h).linkUp)

/-- Serve a request: its response and its effect. -/
def sgrServe (tr : Transport) (s : State) (f : State → SpdmResp × State) : Out :=
  if s.sgrServes tr then .next ((f s).2.modSgr fun g => { g with resp := (f s).1 }) else .next s

/-- The answer to a request that names a slot and needs a signature, where it cannot be served (R415, R418). -/
def State.slotError (s : State) (slot : Nat) (signs : Bool) : Option SpdmResp :=
  if slot = 1 && !s.mgmt.elected then some .errorNotReady
  else if signs && !s.sgr.idOk then some .errorUnspecified
  else if 1 < slot || (slot = 1 && !s.sgr.aliasOk) then some .errorInvalid
  else none

/-- A signature by a slot's leaf key. -/
def State.sign (s : State) (slot : Nat) (msg : List Nat) : Nat := Config.signature slot (s.sgr.secverDev :: msg)

/-! ## Requests without a session -/

def execGetVersion (tr : Transport) (s : State) : Out := sgrServe tr s fun s => (.version 0x12, s)
def execGetCapabilities (tr : Transport) (s : State) : Out := sgrServe tr s fun s => (.capabilities 14 4, s)
def execNegotiateAlgorithms (tr : Transport) (s : State) : Out := sgrServe tr s fun s => (.algorithms, s)

/-- The slots that hold a chain (Table 20.3). -/
def execGetDigests (tr : Transport) (s : State) : Out :=
  sgrServe tr s fun s => (.digests (if s.sgr.aliasOk then [0, 1] else [0]), s)

def execGetCertificate (tr : Transport) (slot off len : Nat) (s : State) : Out :=
  sgrServe tr s fun s => (match s.slotError slot false with
    | some e => e
    | none => .certificate slot (Config.certificate slot off len), s)

def execChallenge (tr : Transport) (slot : Nat) (nonce : Nat) (s : State) : Out :=
  sgrServe tr s fun s => (match s.slotError slot true with
    | some e => e
    | none => .challengeAuth slot (s.sign slot [0x83, nonce]), s)

/-! ## Measurements (R416) -/

/-- Measurement 6, read when it is asked for. -/
def State.stateMeasure (s : State) : Nat :=
  s.mgmt.st.code + 16 * sideBit s.mgmt.active + (if s.mgmt.peer then 32 else 0) + 256 * min 255 s.mgmt.ksResets

/-- The measurements reported, in ascending index: those of an image only once the election has closed. -/
def State.measures (s : State) : List (Nat × Nat) :=
  let six := if s.mgmt.elected then [(6, s.stateMeasure)] else []
  (1, Config.romDigest) :: (s.sgr.meas.filter fun e => e.1 < 6) ++ six ++ s.sgr.meas.filter fun e => 6 < e.1

/-- Is the index one that waits for the election (R418)? -/
def lateIndex (i : Nat) : Bool := (2 ≤ i && i ≤ 6) || (17 ≤ i && i ≤ 25)

/-- GET_MEASUREMENTS for one index, the number of indexes (0) or all of them (255), signed by a slot or not. -/
def execGetMeasurements (tr : Transport) (idx : Nat) (sign : Option Nat) (s : State) : Out :=
  sgrServe tr s fun s =>
    let vals := if idx = 0 then [(0, s.measures.length)] else if idx = 255 then s.measures
      else s.measures.filter fun e => e.1 = idx
    let bad := match sign with
      | some slot => s.slotError slot true
      | none => none
    (if lateIndex idx && !s.mgmt.elected then .errorNotReady
     else match bad with
      | some e => e
      | none =>
        if vals.isEmpty then .errorInvalid
        else .measurements vals (sign.map fun slot => s.sign slot (0xE0 :: idx :: vals.map (·.2))), s)

/-! ## Sessions (R417) -/

/-- A stream leaves its secure state, its keys erased (R419). -/
def State.eraseStream (s : State) (n : Nat) : State := s.modSgr fun g => { g with streams := tDel g.streams n }

/-- A session ends, and with it every stream keyed in it. -/
def State.endSid (s : State) (sid : Nat) : State :=
  s.modSgr fun g => { g with sessions := tDel g.sessions sid
                             streams := g.streams.filter fun e => e.2.session ≠ some sid }

/-- The session of a request, if it is one of the transport. -/
def State.session (s : State) (tr : Transport) (sid : Nat) (opened : Bool) : Option Session :=
  (tGet? s.sgr.sessions sid).filter fun x => x.tr = tr && x.open_ = opened

/-- A request inside an open session. -/
def inSession (tr : Transport) (sid : Nat) (s : State) (f : Session → State → SpdmResp × State) : Out :=
  sgrServe tr s fun s => match s.session tr sid true with
    | some x => f x s
    | none => (.errorInvalid, s)

/-- KEY_EXCHANGE, refused beyond four sessions. -/
def execKeyExchange (tr : Transport) (slot : Nat) (req : Nat) (s : State) : Out :=
  sgrServe tr s fun s =>
    match s.slotError slot true with
    | some e => (e, s)
    | none =>
      if 4 ≤ s.sgr.sessions.length then (.errorSessionLimit, s)
      else
        let sid := s.sgr.nextSid
        (.keyExchangeRsp sid (s.sign slot [0xE4, req, sid]), s.modSgr fun g =>
          { g with nextSid := sid + 1, sessions := tPut g.sessions sid { tr := tr, open_ := false, beatAt := s.time } })

/-- FINISH completes the session. -/
def execFinish (tr : Transport) (sid : Nat) (s : State) : Out :=
  sgrServe tr s fun s => match s.session tr sid false with
    | some x => (.finishRsp sid, s.modSgr fun g =>
        { g with sessions := tPut g.sessions sid { x with open_ := true, beatAt := s.time } })
    | none => (.errorInvalid, s)

def execHeartbeat (tr : Transport) (sid : Nat) (s : State) : Out :=
  inSession tr sid s fun x s => (.heartbeatAck sid, s.modSgr fun g =>
    { g with sessions := tPut g.sessions sid { x with beatAt := s.time } })

def execKeyUpdate (tr : Transport) (sid : Nat) (s : State) : Out :=
  inSession tr sid s fun x s => (.keyUpdateAck sid, s.modSgr fun g =>
    { g with sessions := tPut g.sessions sid { x with keys := x.keys + 1 } })

def execEndSession (tr : Transport) (sid : Nat) (s : State) : Out :=
  inSession tr sid s fun _ s => (.endSessionAck sid, s.endSid sid)

/-- Three heartbeat periods of 60 s have been missed. -/
def execSessionTimeout (sid : Nat) (s : State) : Out :=
  match tGet? s.sgr.sessions sid with
  | some x => if x.beatAt + Config.sec 180 ≤ s.time then .next (s.endSid sid) else .next s
  | none => .next s

/-! ## IDE keys (R419) -/

/-- IDE_KM for stream `j` of port `h`, inside an open session on that port's own transport. -/
def onStream (h j sid : Nat) (s : State) (f : IdeStream → State → SpdmResp × State) : Out :=
  if 4 ≤ h || 4 ≤ j then .fault .noSuchUnit
  else inSession (.port h) sid s fun _ s => f (tGet {} s.sgr.streams (4 * h + j)) s

def setStream (s : State) (n : Nat) (x : IdeStream) : State :=
  s.modSgr fun g => { g with streams := tPut g.streams n x }

/-- Is the key slot one that a stream has: K0 or K1, one of three sub-streams? -/
def slotExists (k : KeySlot) : Bool := k.set < 2 && k.sub < 3

/-- KEY_PROG: a key set in use keeps its keys, and the answer is Unsupported. -/
def execKeyProg (h j sid : Nat) (k : KeySlot) (key : Nat) (s : State) : Out :=
  onStream h j sid s fun x s =>
    if !slotExists k || x.going.any (·.set = k.set) then (.ideAck true, s)
    else (.ideAck false, setStream s (4 * h + j)
      { x with keys := x.keys.filter (fun e => e.1 ≠ k) ++ [(k, key)], session := some sid })

/-- Do both directions, with every sub-stream, run on the key set? -/
def runsOn (going : List KeySlot) (set : Nat) : Bool :=
  [true, false].all fun rx => (List.range 3).all fun sub => going.contains ⟨set, rx, sub⟩

/-- K_SET_GO: the slot's direction and sub-stream switch to the key set; the stream is secure once all of them run on one. -/
def execKSetGo (h j sid : Nat) (k : KeySlot) (s : State) : Out :=
  onStream h j sid s fun x s =>
    if !slotExists k || !x.keys.any (·.1 = k) then (.ideAck true, s)
    else
      let going := (x.going.filter fun g => !(g.rx = k.rx && g.sub = k.sub)) ++ [k]
      (.ideAck false, setStream s (4 * h + j)
        { x with going := going, session := some sid, secure := if runsOn going k.set then some k.set else x.secure })

/-- K_SET_STOP: the stream leaves its secure state, its keys erased. -/
def execKSetStop (h j sid : Nat) (k : KeySlot) (s : State) : Out :=
  onStream h j sid s fun _ s => if slotExists k then (.ideAck false, s.eraseStream (4 * h + j)) else (.ideAck true, s)

/-- An IDE error on the stream. -/
def execIdeError (h j : Nat) (s : State) : Out :=
  if 4 ≤ h || 4 ≤ j then .fault .noSuchUnit else .next (s.eraseStream (4 * h + j))

/-- SGR_STATUS (Table 20.6). -/
def State.sgrStatus (s : State) : Word :=
  let g := s.sgr
  let bit := fun (h j : Nat) => if (tGet {} g.streams (4 * h + j)).secure.isSome then 1 else 0
  let lo := ((List.range 8).map fun i => bit (i / 4) (i % 4) * 2 ^ i).sum
  let hi := ((List.range 8).map fun i => bit (2 + i / 4) (i % 4) * 2 ^ i).sum
  let open_ := (g.sessions.filter fun e => e.2.open_).length
  let b := fun (x : Bool) (i : Nat) => if x then 2 ^ i else 0
  BitVec.ofNat 32 (g.secverDev * 2 ^ 24 + lo * 2 ^ 16 + hi * 2 ^ 8 + open_ * 2 ^ 5 + b g.lockSplit 4 + b g.aliasOk 3
    + b g.idOk 2 + b g.rootOk 1)

end Sys2Proof.Machine
end

