-- ==== Sys2Proof/Machine/Status.lean ====
section
/-! DEFINITION. The status window and its publication, the sideband's commands, and performance collection (R254, R280, R291,
R323, R341, R375, R391 to R393, R406, R420 to R422, R424, R426, R428 to R430, R438). -/

namespace Sys2Proof.Machine

/-! ## The registers of the window (Table 21.1) -/

def bitN (x : Bool) (i : Nat) : Nat := if x then 2 ^ i else 0

/-- KST_STATE (Table 12.1). -/
def State.kstState (s : State) : Nat :=
  let m := s.mgmt
  m.safeCause * 2 ^ 20 + bitN m.degrKs 12 + bitN m.degrField 11 + bitN m.degrVdt 10 + bitN m.degrPcie 9
    + bitN m.degrFloor 8 + bitN m.recovery 6 + bitN m.peer 5 + bitN m.active.isNorth 4 + m.st.code

/-- LINKPROG: the elapsed part of the link window. -/
def State.linkProg (s : State) : Nat :=
  match s.mgmt.windowAt, s.mgmt.mapAt with
  | some a, none => min 4095 ((s.now - a) * 4096 / linkWindow)
  | _, _ => s.mgmt.linkProg

/-- KST_BRINGUP (Table 12.5). -/
def State.kstBringup (s : State) : Nat :=
  let u := s.mgmt.upLost.getD s.upLostNow
  u.1 * 2 ^ 26 + u.2 * 2 ^ 20 + s.mgmt.wave * 2 ^ 16 + s.mgmt.step * 2 ^ 12 + s.linkProg

/-- KST_IMAGE_S or KST_IMAGE_N (Table 13.5). -/
def Keystone.image (k : Keystone) : Nat := k.secver * 2 ^ 24 + k.sect * 2 ^ 16 + k.cause * 2 ^ 8 + k.verdict

/-- PHASE of KST_CKPT: the work under way that comes first in 4 rebuilding, 2 capturing, 1 waiting, 3 parity (R406). -/
def Ckpt.phase (c : Ckpt) : Nat :=
  if c.groups.any (·.rebuilding) then 4
  else if !c.capturing.isEmpty then 2
  else if !c.waiting.isEmpty then 1
  else if c.n ≠ 0 || !c.streams.isEmpty || c.groups.any (·.pn ≠ 0) then 3
  else 0

/-- KST_CKPT (Table 19.7). -/
def Ckpt.word (c : Ckpt) : Nat := c.last % 65536 * 2 ^ 16 + c.phase * 2 ^ 12 + c.refused.toNat * 2 ^ 8 + c.late

/-- CLK_ROOT and CLK_CHECK (Tables 15.8 and 15.9). -/
def Clk.root (c : Clk) : Nat :=
  c.switches * 2 ^ 24 + bitN c.core 8 + bitN c.valid 7 + bitN c.edge.isNorth 6 + c.fx * 2 ^ 3 + c.locking
def Clk.check (c : Clk) : Nat := c.faults * 2 ^ 24 + c.last * 2 ^ 16 + c.rounds

/-- KLN_STATUS (Table 14.10). -/
def State.klnStatus (s : State) : Nat :=
  let k := s.kiln
  k.pIn % 32768 * 2 ^ 17 + k.fstep * 2 ^ 14 + k.fpend * 2 ^ 11 + bitN k.pend 10 + bitN k.limiting 9 + bitN s.therm 8
    + bitN k.feedA 7 + bitN k.feedB 6 + (if k.pend then min 63 ((s.time - k.pendAt) / Config.ms 1) else 0)

/-- VDT_TIME (Table 17.5). -/
def Viaduct.time (v : Viaduct) : Nat := (BitVec.ofInt 16 v.offset).toNat * 2 ^ 16 + v.src

def satNat (hi : Nat) (x : Int) : Nat := min hi x.toNat

/-- FLD_POWER and FLD_DROOP (Table 14.11). -/
def Field.power (f : Field) : Nat :=
  satNat 1023 (f.ma / 1000) * 2 ^ 22 + satNat 1023 f.mv * 2 ^ 12 + (BitVec.ofInt 8 f.temp).toNat * 2 ^ 4
    + bitN f.sfail 2 + bitN f.railOff 1 + bitN f.tripped 0
def Field.droop (f : Field) : Nat := f.droops * 2 ^ 16

def VdtState.code : VdtState → Nat
  | .unused => 0 | .training => 1 | .up => 2 | .degraded => 3 | .failed => 4

/-- VDT_PORT and VDT_LANES (Tables 17.3 and 17.4). -/
def VdtPort.word (p : VdtPort) : Nat := p.uncorr * 2 ^ 20 + p.replays * 2 ^ 8 + p.state.code * 2 ^ 4 + p.width * 2 ^ 2
def VdtPort.lanes (p : VdtPort) : Nat := p.used.toNat * 2 ^ 16 + p.qual.toNat

def PortState.code : PortState → Nat
  | .down => 0 | .up => 1 | .failed => 2

/-- HOST_PORT (Table 16.12). -/
def State.hostPort (s : State) (h : Nat) : Nat :=
  let p := s.port h
  (s.live (.pcie h)).length * 2 ^ 20 + p.downs * 2 ^ 12 + p.width * 2 ^ 5 + p.rate * 2 ^ 3 + (s.portState h).code

def SpanState.code : SpanState → Nat
  | .unused => 0 | .loading => 1 | .running => 2 | .changing => 3 | .resetting => 4 | .held => 5 | .placeFail => 6

/-- SPN_STATUS0, SPN_STATUS1 and SPN_CSTEP (Tables 11.2, 11.3 and 18.5). -/
def Span.status0 (x : Span) : Nat :=
  x.rcause * 2 ^ 16 + x.resets * 2 ^ 8 + bitN x.layout.flex 5 + x.course * 2 ^ 3 + x.state.code
def Span.status1 (x : Span) : Nat := min 2047 x.residual * 2 ^ 21 + x.ftile
def Span.cstepWord (x : Span) : Nat := x.cstep % 2 ^ 24 * 2 ^ 8 + x.course

/-- HOST_SPAN_RESULT (Table 16.11). -/
def Status.spanResultWord (x : Status) : Nat := x.result * 2 ^ 28 + x.cmd * 2 ^ 12 + x.cmdSpan

/-- KST_PERF_CTRL (Table 21.5). -/
def Status.perfCtrl (x : Status) : Nat :=
  x.mode * 2 ^ 30 + x.span * 2 ^ 18 + x.period * 2 ^ 11 + x.xstep * 2 ^ 7 + x.ystep * 2 ^ 3 + bitN x.err 2

/-- The eight words of an event record (Table 21.3). -/
def EvRec.words (r : EvRec) : List Nat :=
  [r.code + r.sev * 2 ^ 16 + r.src * 2 ^ 18 + r.kind * 2 ^ 21, r.gtime % 2 ^ 32, r.gtime / 2 ^ 32 % 2 ^ 32,
   r.tile.getD 0 + bitN r.tile.isSome 21 + r.field.getD 0 * 2 ^ 22 + bitN r.field.isSome 28,
   r.span.getD 0 + bitN r.span.isSome 12, r.count, r.arg % 2 ^ 32, r.seqNo]

/-- Offset of the record with sequence number s (R424). -/
def recordAt (n : Nat) : Nat := 0x20000 + 32 * (n % 2048)

/-- The area words that follow one another from an offset on. -/
def areaWords (off : Nat) (ws : List Nat) : List (Nat × Nat) := (List.range ws.length).map fun i => (off + 4 * i, ws.getD i 0)

/-- The words that every state shows, SAFE and HALTED too (R422). -/
def State.coreWords (s : State) : List (Nat × Nat) :=
  [(0x1000, s.kstState), (0x1004, s.kstBringup), (0x100C, s.south.image), (0x1010, s.north.image),
   (0x1018, s.sgrStatus.toNat), (0x1034, s.status.next)]
    ++ (s.status.log.map fun r => areaWords (recordAt r.seqNo) r.words).flatten

/-- The other words. -/
def State.serviceWords (s : State) : List (Nat × Nat) :=
  [(0x1008, bitN s.mgmt.slotValid 8 + s.mgmt.engId), (0x1014, s.ckpt.word), (0x101C, s.clk.root), (0x1020, s.clk.check),
   (0x1024, s.kiln.cap), (0x1028, s.klnStatus), (0x102C, s.vdt.time), (0x1030, s.status.perfCtrl),
   (0x1038, s.status.spanResultWord)]
    ++ ((List.range Config.nFields).map fun n =>
      [(0x1100 + 8 * n, (s.field n).power), (0x1104 + 8 * n, (s.field n).droop)]).flatten
    ++ (s.vdt.ports.map fun e => [(0x1300 + 8 * e.1, e.2.word), (0x1304 + 8 * e.1, e.2.lanes)]).flatten
    ++ ((List.range 4).map fun h => (0x1500 + 4 * h, s.hostPort h))
    ++ (s.spans.map fun e => [(0x10000 + 16 * e.1, e.2.status0), (0x10004 + 16 * e.1, e.2.status1),
        (0x10008 + 16 * e.1, e.2.cstepWord)]).flatten
    ++ s.status.perf.map (fun e => (e.1, e.2.toNat))
    ++ areaWords 0x400000 ([0x10000, s.map.gen, s.map.recs.length, s.map.usable] ++ s.map.recs.map MapRec.word)

/-- One whole copy: offsets and words, zero words left out. -/
def State.window (s : State) : Tab Word :=
  let ws := s.coreWords ++ (if s.mgmt.st = .safe || s.mgmt.st = .halted then [] else s.serviceWords)
  ws.foldl (fun t e => tSet 0 t e.1 (BitVec.ofNat 32 e.2)) []

/-! ## Reads of BAR2 (R9, R344) -/

def RingState.code : RingState → Nat
  | .unused => 0 | .running => 1 | .held => 2 | .faulted => 3 | .down => 4 | .stopped => 5

/-- HOST_RING_STAT (Table 16.7). -/
def Ring.stat (r : Ring) : Nat := r.n % 2 ^ 16 * 2 ^ 16 + r.cause * 2 ^ 8 + r.state.code

/-- A 32-bit read of BAR2 on port `h`: the registers of Table 16.3 that read; a write-only word, a reserved field, a ring of
another port and an unlisted offset read 0 (R9, R344). -/
def State.bar2Read (s : State) (h off : Nat) : Nat :=
  let p := s.port h
  let r := (s.ks (portSide h)).rcv
  if off % 4 ≠ 0 then 0
  else if 0x1000 ≤ off && off < 0x1800 then
    match tGet? s.rings ((off - 0x1000) / 8) with
    | some x => if x.port = h && off % 8 = 4 then x.stat else 0
    | none => 0
  else if 0x8000 ≤ off && off < 0x8400 then
    let i := (off - 0x8000) / 4
    (tGet (if i % 4 = 3 then 1 else 0) p.msix i).toNat
  else if off = 0x8400 then p.pendBits.toNat % 2 ^ 32
  else if off = 0x8404 then p.pendBits.toNat / 2 ^ 32
  else if off = 0xFE08 then s.status.spanResultWord
  else if off = 0xFF00 then r.addr.toNat % 2 ^ 32
  else if off = 0xFF04 then r.addr.toNat / 2 ^ 32
  else if off = 0xFF08 then r.len
  else if off = 0xFF10 then r.status s.time
  else 0

/-! ## Publication (R392, R426) -/

/-- The records written since the last publication hold one with SEV 2 or 3. -/
def Status.alarm (x : Status) : Bool :=
  let n := (x.next + 2 ^ 32 - x.announced) % 2 ^ 32
  (x.log.drop (x.log.length - n)).any fun r => 2 ≤ r.sev

/-- Vector 0 of a port that is up, at most once in any 100 µs. -/
def State.alarmPort (s : State) (alarm : Bool) (h : Nat) : State :=
  let p := s.port h
  if !s.portUp h || !(alarm || p.v0Due) then s
  else
    let early : Bool := match p.lastV0 with
      | some a => s.time < a + Config.us 100
      | none => false
    if early then s.modPort h fun p => { p with v0Due := true }
    else (s.sendMsix h 0).modPort h fun p => { p with v0Due := false, lastV0 := some s.time }

/-- Do the Keystones run: from ROM on? -/
def State.managed (s : State) : Bool := !(s.mgmt.st = .off || s.mgmt.st = .deepOff)

/-- The Keystone writes the copy that is not current, and advances GEN; never twice within 10 µs. -/
def execStatusPublish (s : State) : Out :=
  let early : Bool := match s.status.pubAt with
    | some a => s.time < a + Config.us 10
    | none => false
  if !s.managed || early || s.mgmt.ksReset.isSome then .next s
  else
    let w := s.window
    let alarm := s.status.alarm
    let s := s.modStatus fun x =>
      let g := (x.gen + 1) % 2 ^ 32
      { x with gen := g, copy0 := if g % 2 = 0 then w else x.copy0, copy1 := if g % 2 = 0 then x.copy1 else w
               pubAt := some s.time, announced := x.next }
    .next ((List.range 4).foldl (fun s h => s.alarmPort alarm h) s)

/-- The current copy. -/
def Status.current (x : Status) : Tab Word := if x.gen % 2 = 0 then x.copy0 else x.copy1

/-! ## Performance collection (R428 to R430) -/

/-- Lattice points of a span's rectangle. -/
def SpanRec.lattice (r : SpanRec) (xs ys : Nat) : List (Nat × Nat) :=
  ((List.range ((r.y1 - r.y0) / 2 ^ ys + 1)).map fun b => (List.range ((r.x1 - r.x0) / 2 ^ xs + 1)).map fun a =>
    (r.x0 + a * 2 ^ xs, r.y0 + b * 2 ^ ys)).flatten

def SpanRec.points (r : SpanRec) (xs ys : Nat) : Nat := ((r.y1 - r.y0) / 2 ^ ys + 1) * ((r.x1 - r.x0) / 2 ^ xs + 1)
def SpanRec.area (r : SpanRec) : Nat := (r.x1 + 1 - r.x0) * (r.y1 + 1 - r.y0)

/-- Is a write of MODE 1 or 2 refused? -/
def State.perfBad (s : State) (p : PerfRun) : Bool :=
  let x := s.span p.span
  !(x.state = .running || x.state = .changing || x.state = .held) || p.period = 0 || 100 < p.period || 10 < p.xstep
    || 10 < p.ystep
    || (p.mode = 1 && (4096 < x.layout.area || p.period < 20))
    || (p.mode = 2 && (1024 * p.period < x.layout.points p.xstep p.ystep || 4096 < x.layout.points p.xstep p.ystep))

/-- The counters of the span's usable tiles, from which a collection's first differences count. -/
def State.baseline (s : State) (n : Nat) : Tab (List Nat) :=
  tOf ((s.spanTiles n).map fun t => (t, (List.range 31).map (s.tile t).cntField))

/-- The registers take effect at a period boundary: the performance area is cleared. -/
def State.applyPerf (s : State) : State :=
  let x := s.status
  s.modStatus fun y => { y with
    run := if x.mode = 0 then none else some ⟨x.mode, x.span, x.period, x.xstep, x.ystep, s.clk.master⟩
    newCtrl := false, perf := [], periodNo := 0, prev := if x.mode = 1 then s.baseline x.span else [] }

/-- A write of KST_PERF_CTRL. -/
def State.perfWrite (s : State) (v : Word) : State :=
  let p : PerfRun := ⟨bitsW v 30 2, bitsW v 18 12, bitsW v 11 7, bitsW v 7 4, bitsW v 3 4, 0⟩
  let s := s.modStatus fun x =>
    if p.mode = 3 || (p.mode ≠ 0 && s.perfBad p) then { x with mode := 0, err := true, newCtrl := true }
    else { x with mode := p.mode, span := p.span, period := p.period, xstep := p.xstep, ystep := p.ystep, err := false,
                  newCtrl := true }
  if s.status.run.isNone then s.applyPerf else s

def execPerfCtrlWrite (v : BitVec 32) (s : State) : Out :=
  if s.mgmt.st = .glost || s.inService then .next (s.perfWrite v) else .next s

/-- Is a period of a collection of the mode over? -/
def State.periodOver (s : State) (mode : Nat) : Option PerfRun :=
  s.status.run.filter fun p => p.mode = mode && p.at_ + 1000 * p.period ≤ s.clk.master && s.mgmt.ksReset.isNone

/-- A period has ended: its number, and the next one or the newly written method. -/
def State.nextPeriod (s : State) (p : PerfRun) : State :=
  if s.status.newCtrl then s.applyPerf
  else s.modStatus fun x => { x with run := some { p with at_ := s.clk.master }, periodNo := x.periodNo + 1 }

/-- Difference of field j modulo 2 to its width. -/
def cntDiff (j old new : Nat) : Nat :=
  let w := if 9 ≤ j && j < 17 then 8 else cntWidth j
  (new + 2 ^ w - old % 2 ^ w) % 2 ^ w

/-- Put words into the performance area. -/
def putWords (t : Tab Word) (ws : List (Nat × Nat)) : Tab Word :=
  ws.foldl (fun t e => tSet 0 t e.1 (BitVec.ofNat 32 e.2)) t

/-- Address of word k of the i-th tile's entry (R429). -/
def entryAt (i k : Nat) : Nat := 0x101000 + 64 * i + 4 * k

/-- An unusable tile reads 0 (R429). -/
def State.zeroTile (s : State) (i : Nat) : State :=
  s.modStatus fun x => { x with perf := putWords x.perf ((List.range 16).map fun k => (entryAt i k, 0)) }

/-- One tile's 16 words of differences; a tile that has not answered keeps its entry (R429). -/
def State.collectTile (s : State) (i t : Nat) : State :=
  let old := tGet [] s.status.prev t
  let new := (List.range 31).map (s.tile t).cntField
  let d := fun j => cntDiff j (old.getD j 0) (new.getD j 0)
  let ws := (List.range 16).map fun k => (entryAt i k, (cntPack d k).toNat)
  let sums := (List.range 31).map fun j =>
    let a := 0x100040 + 8 * j
    let v := (tGet 0 s.status.perf a).toNat + 2 ^ 32 * (tGet 0 s.status.perf (a + 4)).toNat + d j
    [(a, v % 2 ^ 32), (a + 4, v / 2 ^ 32)]
  s.modStatus fun x => { x with prev := tPut x.prev t new, perf := putWords x.perf (ws ++ sums.flatten) }

/-- The tiles of a rectangle in ascending tile ID, usable or not. -/
def SpanRec.tiles (r : SpanRec) : List Nat :=
  ((List.range (r.y1 + 1 - r.y0)).map fun j => (List.range (r.x1 + 1 - r.x0)).map fun i => tileId (r.x0 + i) (r.y0 + j)).flatten

/-- The end of a period of MODE 1; `missing` are the tiles that have not answered within 100 µs. -/
def execCounterCollection (missing : List Nat) (s : State) : Out :=
  match s.periodOver 1 with
  | none => .next s
  | some p =>
    let ts := (s.span p.span).layout.tiles
    let head := [(0x100000, s.status.periodNo), (0x100008, s.clk.master % 2 ^ 32), (0x10000C, s.clk.master / 2 ^ 32)]
    let zero := ((List.range 31).map fun j => [(0x100040 + 8 * j, 0), (0x100044 + 8 * j, 0)]).flatten
    let s := s.modStatus fun x => { x with perf := putWords x.perf (head ++ zero) }
    let s := (List.range ts.length).foldl (fun s i =>
      let t := ts.getD i 0
      if !s.usable t then s.zeroTile i else if missing.contains t then s else s.collectTile i t) s
    .next (s.nextPeriod p)

/-- MSGS and FREE of a queue as its status word shows them. -/
def Tile.msgsOf (x : Tile) (i : Nat) : Nat := bitsW (x.qstat i) 20 4
def Tile.freeOf (x : Tile) (i : Nat) : Nat := bitsW (x.qstat i) 16 4

/-- A point's two words after a probe that was answered (R430). -/
def State.samplePoint (s : State) (p : Nat) (t : Nat) : State :=
  let x := s.tile t
  let last := ((List.range 8).map fun i => x.msgsOf i * 2 ^ (4 * i)).sum
  let full := (List.range 8).any fun i => (x.queue i).isOpen && x.freeOf i = 0
  let a := 0x101000 + 8 * p
  let w := (tGet 0 s.status.perf (a + 4)).toNat
  let samples := (w / 65536 + 1) % 65536
  let fulls := (w % 65536 + if full then 1 else 0) % 65536
  s.modStatus fun y => { y with perf := putWords y.perf [(a, last), (a + 4, samples * 65536 + fulls)] }

/-- The end of a period of MODE 2. -/
def execQueueDepthSample (missing : List Nat) (s : State) : Out :=
  match s.periodOver 2 with
  | none => .next s
  | some p =>
    let ps := (s.span p.span).layout.lattice p.xstep p.ystep
    let s := s.modStatus fun x => { x with perf := putWords x.perf [(0x100000, x.periodNo)] }
    let s := (List.range ps.length).foldl (fun s i =>
      let q := ps.getD i (0, 0)
      let t := tileId q.1 q.2
      if s.usable t && !missing.contains t then s.samplePoint i t else s) s
    .next (s.nextPeriod p)

/-! ## Writes to the window, and the sideband (R393, R422, R438) -/

/-- A host write to BAR0, in either copy: KLN_CAP and KST_PERF_CTRL are writable. -/
def execWindowWrite (off : Nat) (v : BitVec 32) (s : State) : Out :=
  let o := off % 0x800000
  if o = 0x1024 then execKlnCapWrite v s else if o = 0x1030 then execPerfCtrlWrite v s else .next s

def State.pldm (s : State) (cc : Nat) (ws : List Word) : State :=
  s.modStatus fun x => { x with pldm := ⟨cc, x.gen, ws⟩ }

/-- The sideband's place in the log after a read of `len` bytes at `off`: it moves on over records the read covers. -/
def readOn (next off len : Nat) : Nat → Nat → Nat
  | 0, r => r
  | n + 1, r => if r < next && off ≤ recordAt r && recordAt r + 32 ≤ off + len then readOn next off len n (r + 1) else r

/-- READ_WINDOW: `crossed` says that a publication fell within the read. -/
def execReadWindow (off len : Nat) (crossed : Bool) (s : State) : Out :=
  if !s.managed then .next s
  else if off % 4 ≠ 0 || len < 4 || 1024 < len then .next (s.pldm 0x02 [])
  else if crossed then .next (s.pldm 0x80 [])
  else
    let ws := (List.range (ceilDiv len 4)).map fun i => tGet 0 s.status.current (off + 4 * i)
    .next ((s.pldm 0 ws).modStatus fun x =>
      { x with read := readOn x.next off len 32 (max x.read (x.next - 2048)) })

/-- The outcome with the sideband's response. -/
def withPldm (cc : Nat) : Out → Out
  | .next s => .next (s.pldm cc [])
  | o => o

/-- WRITE_WINDOW. -/
def execWriteWindow (off : Nat) (v : BitVec 32) (s : State) : Out :=
  if s.managed then withPldm 0 (execWindowWrite off v s) else .next s

/-- A write of HOST_SPAN_CMD (Table 16.10). -/
def spanCmdWrite (v : Word) (s : State) : Out :=
  match spanCmd v with
  | 1 => execHostSpanReset v s
  | 2 => execHostSpanRestart v s
  | 3 => execHostSpanStart v s
  | _ => .next s

/-- WRITE_CONTROL: KLN_CTRL, HOST_SPAN_CMD; any other number is answered 0x81. -/
def execWriteControl (num : Nat) (v : BitVec 32) (s : State) : Out :=
  if !s.managed then .next s
  else match num with
    | 0 => execDeepOffEntry v (s.pldm 0 [])
    | 1 => spanCmdWrite v (s.pldm 0 [])
    | _ => .next (s.pldm 0x81 [])

/-- PLDM numeric sensors: TEMP of fields 0 to 47, P_IN, CURR of fields. -/
def execPldmSensorRead (sensor : Nat) (s : State) : Out :=
  if !s.managed then .next s
  else if sensor < 48 then .next (s.pldm 0 [BitVec.ofNat 32 (BitVec.ofInt 8 (s.field sensor).temp).toNat])
  else if sensor = 48 then .next (s.pldm 0 [BitVec.ofNat 32 (s.kiln.pIn % 32768)])
  else if sensor < 97 then .next (s.pldm 0 [BitVec.ofNat 32 (satNat 1023 ((s.field (sensor - 49)).ma / 1000))])
  else .next (s.pldm 0x80 [])

/-- SMB_ALERT_N is low: a record of SEV 2 or 3 that the sideband has not read is in the log (R436, R438). -/
def State.smbAlertLow (s : State) : Bool := s.status.log.any fun r => 2 ≤ r.sev && s.status.read ≤ r.seqNo

end Sys2Proof.Machine
end

