-- ==== Sys2Proof/Machine/Training.lean ====
section
/-! DEFINITION. Snapshots of training spans, their shards in host memory, parity between engines, and rebuilding
(R396 to R406). -/

namespace Sys2Proof.Machine

/-! ## Shard and parity windows -/

/-- Do the windows take writes: port up, IDE stream secure (R348, R356)? -/
def State.winsUp (s : State) (wins : List Nat) : Bool :=
  wins.all fun w => match tGet? s.windows w with
    | some x => s.portUp x.port && s.ideSecure x.port x
    | none => false

/-- A PUT of the bulk mover to a window, in writes that stay within 4 KiB. -/
def State.winWrite (s : State) (w off : Nat) (bs : List Byte) : State :=
  match tGet? s.windows w with
  | none => s
  | some x => s.putOut x.port ((List.range (ceilDiv bs.length 4096)).map fun i =>
      .write (x.base + off + 4096 * i) ((bs.drop (4096 * i)).take 4096) x.noSnoop)

/-- A 4-byte GET from a window. -/
def State.winProbe (s : State) (w off : Nat) : State :=
  match tGet? s.windows w with
  | none => s
  | some x => s.putOut x.port [.read (x.base + off) 4]

/-- Write the record of a slot of window `w`. -/
def State.writeRecord (s : State) (w snap : Nat) (bs : List Byte) : State :=
  s.winWrite w (snap % 2 * parSlot s.image) bs

/-- The record of an uncommitted slot: MAGIC 0 (R398). -/
def emptyRecord : List Byte := List.replicate 64 0

/-- The GETs of R398 step 3: to the last stripe written on each window. -/
def State.readBack (s : State) (wins : List Nat) (snap len : Nat) : State :=
  let n := stripeCount len
  (List.range wins.length).foldl (fun s j =>
    match (List.range n).reverse.find? fun k => k % wins.length = j with
    | some k => let a := stripeAt s.image wins snap k
                s.winProbe a.1 a.2
    | none => s) s

/-! ## Snapshots (R396, R397, R398, R405) -/

/-- Master time, in ns, at which snapshot n falls due, and INTERVAL_S / 4 after it. -/
def dueTime (m : Mem) (n : Nat) : Nat := n * parInterval m * 1000000000
def lateTime (m : Mem) (n : Nat) : Nat := dueTime m n + parInterval m * 250000000

/-- A parity group begins to accumulate snapshot n. -/
def Group.expect (g : Group) (n : Nat) : Group :=
  if 8 ≤ g.index && !g.refused && !g.rebuilding && g.pn = 0 then { g.cleared with pn := n } else g

/-- Snapshot n falls due: every training span waits for its next course change; with n − 1 neither committed nor abandoned
it is not taken (R396, R405). -/
def execSnapshotDue (s : State) : Out :=
  let m := s.image
  let n := s.clk.master / 1000000000 / parInterval m
  if (sect m 7).isNone || !s.inService || s.mgmt.ksReset.isSome || n ≤ s.ckpt.lastDue then .next s
  else
    let s := s.modCkpt fun c => { c with lastDue := n, groups := c.groups.map (·.expect n) }
    if s.ckpt.n ≠ 0 then .next (s.checkpointLate n)
    else .next (s.modCkpt fun c =>
      { c with n := n, waiting := (parSpans m).map (·.1), capturing := [], data := [], written := false,
               streams := c.streams.filter fun st => st.serve.isSome })

/-- The group in which this engine is a data member. -/
def Ckpt.dataGroup (c : Ckpt) : Option Group := c.groups.find? (·.index ≤ 7)

/-- The shard: the bytes of the spans in section order (R397). -/
def State.shard (s : State) : List Byte := ((parSpans s.image).map fun e => tGet [] s.ckpt.data e.1).flatten

/-- The flow of a data member's shard to position `j`: unchanged to 8, multiplied by 2^i to 9 (R400). -/
def parityStream (g : Group) (bs : List Byte) (j : Nat) : ParFlow :=
  { gid := g.id, index := g.index, dest := g.members.getD j 0, len := bs.length,
    data := (padStripes bs).map (gfMul (if j = 8 then 1 else coeff1 g.index)) }

/-- A data member sends its shard to positions 8 and 9 (R400). -/
def State.sendParity (s : State) (bs : List Byte) : State :=
  match s.ckpt.dataGroup with
  | none => s
  | some g => if g.refused then s else (s.startStream (parityStream g bs 8)).startStream (parityStream g bs 9)

/-- Every span is captured: the record is set to MAGIC 0, the stripes and the GETs follow, and the parity flows begin; a
shard that does not fit is not written (R397, R398, R400). -/
def State.writeShard (s : State) : State :=
  let m := s.image
  let wins := parWins m
  let n := s.ckpt.n
  let bs := s.shard
  if !shardFits m wins bs.length then s.abandonSnapshot
  else
    let all := padStripes bs
    let s := s.writeRecord (wins.getD 0 0) n emptyRecord
    let s := (List.range (stripeCount bs.length)).foldl (fun s k =>
      let a := stripeAt m wins n k
      s.winWrite a.1 a.2 ((all.drop (k * stripeLen)).take stripeLen)) s
    ((s.readBack wins n bs.length).modCkpt fun c => { c with written := true }).sendParity bs

/-- Every GET of a span's capture is answered: the span goes on with step 3. A GET that fails, or a shard window whose port
has gone down, abandons the snapshot (R215, R396, R405). -/
def execCaptureComplete (n : Nat) (s : State) : Out :=
  onSpan n s fun s =>
    let m := s.image
    let ts := s.spanTiles n
    if !(s.span n).op.any (·.capture) || !s.ckpt.capturing.contains n || s.mgmt.ksReset.isSome then .next s
    else match (parSpans m).find? (·.1 = n) with
      | none => .next s
      | some (_, lo, hi) =>
        let k := hi + 1 - lo
        let s := ts.foldl (fun s t => s.readEffects t lo k) s
        let lost := ts.any fun t => (s.tile t).pad.bad lo k || (s.tile t).pad.anyOff lo k
        if lost || !s.winsUp (parWins m) || s.winDowns (parWins m) ≠ s.ckpt.downs then .next s.abandonSnapshot
        else
          let bs := (ts.map fun t => (s.tile t).pad.bytes lo k).flatten
          let s := s.modCkpt fun c => { c with capturing := c.capturing.filter (· ≠ n), data := tPut c.data n bs }
          let s := s.loadStart n
          .next (if s.ckpt.n ≠ 0 && s.ckpt.waiting.isEmpty && s.ckpt.capturing.isEmpty then s.writeShard else s)

/-- Every stripe PUT has been answered OK and every GET has completed: the commit record is written. With a port of the
windows down, or down in the meantime, the record stays at MAGIC 0 and the snapshot is abandoned (R398, R405). -/
def execShardCommit (s : State) : Out :=
  let wins := parWins s.image
  let c := s.ckpt
  if c.n = 0 || !c.written then .next s
  else if !s.winsUp wins || s.winDowns wins ≠ c.downs then .next s.abandonSnapshot
  else
    let g := c.dataGroup
    let r := commitRecord commitMagic c.n s.mgmt.engId (g.elim 0xFF (·.index)) (g.elim 0 (·.id)) c.mapGen s.shard.length
      c.firstAt
    .next ((s.writeRecord (wins.getD 0 0) c.n r).modCkpt fun c =>
      { c with n := 0, last := c.n, data := [], written := false })

/-- A training span has had no capturable course change INTERVAL_S / 4 after the due time, or its capture is deferred: the
snapshot is abandoned (R404, R405). -/
def execSnapshotDeadline (s : State) : Out :=
  if s.ckpt.n ≠ 0 && !s.ckpt.waiting.isEmpty && lateTime s.image s.ckpt.n ≤ s.clk.master then .next s.abandonSnapshot
  else .next s

/-! ## Parity and rebuilding at the receiver (R399 to R403) -/

/-- Is the packet of the group: by GROUP_ID, which an end packet does not carry, and by its sender, whom a rebuild request
need not find among the members (R400, R403)? -/
def Group.hears (g : Group) (k : Packet) : Bool :=
  (k.sub = 1 || g.id = k.queue) && (k.sub = 2 || g.members.contains k.seng)

/-- A PARITY packet of one SUB for group entry g, first on VC0 of port p: it is taken and answered OK; a refused group, or
no group, accepts none (R400, R402). -/
def parityCommand (p g : Nat) (k : Packet) (sub : BitVec 4) (s : State) (f : Group → State → State) : Out :=
  onVport p s fun s =>
    if k.op ≠ .parity || k.ret || k.sub ≠ sub then .next s
    else match s.takeReceived p k with
      | none => .next s
      | some s' =>
        if k.deng ≠ s.mgmt.engId || !s.ckpt.groups.any (·.hears k) then .next s'
        else match s.ckpt.groups[g]? with
          | none => .next s
          | some x =>
            if !x.hears k then .next s
            else if x.refused then .next s'
            else
              let r := respTo s.mgmt.engId 0 k 0 k.seng .ok 0
              .next (f x (s'.sendBack p k { r with out := false, srcKind := 2 }))

/-- The positions whose shards are added up. -/
def Group.sources (g : Group) : List Nat := if g.rebuilding then g.asked else List.range 8
/-- Does the group add up pieces of position i? -/
def Group.accepts (g : Group) (i : Nat) : Bool := (g.rebuilding || g.pn ≠ 0) && g.sources.contains i
/-- The snapshot that is added up. -/
def Group.snap (g : Group) : Nat := if g.rebuilding then g.rsnap else g.pn
/-- The windows of the position's own slots. -/
def Group.wins (g : Group) (m : Mem) : List Nat := if g.index ≤ 7 then parWins m else [g.pwin]

/-- XOR bytes into a stripe buffer. -/
def xorInto : Mem → Nat → List Byte → Mem
  | m, _, [] => m
  | m, a, b :: bs => xorInto (mWrite 0 m a (mRead 0 m a ^^^ b)) (a + 1) bs

def Group.addPiece (g : Group) (i : Nat) (k : Packet) : Group :=
  { g with pieces := g.pieces ++ [(i, k.run, k.gen)]
           stripes := tPut g.stripes k.run (xorInto (tGet [] g.stripes k.run) (k.gen * pieceLen) k.data) }

/-- Has every source delivered stripe k, or an end whose LEN does not reach it? -/
def Group.stripeDone (g : Group) (k : Nat) : Bool :=
  g.sources.all fun i => (g.pieces.filter fun e => e.1 = i && e.2.1 = k).length = stripePieces
    || (match tGet? g.ends i with
      | some len => len ≤ k * stripeLen
      | none => false)

/-- The flow to the window has failed: parity of the snapshot is abandoned, a rebuild ends (R398, R401, R403). -/
def State.groupFails (s : State) (g : Nat) : State :=
  match s.ckpt.groups[g]? with
  | none => s
  | some x =>
    if x.rebuilding then s.rebuildEnds g false else ((s.checkpointLate x.pn).modGroup g (·.cleared))

/-- Before the first stripe of a slot its record is set to MAGIC 0 (R398). -/
def State.openSlot (s : State) (g : Nat) : State :=
  match s.ckpt.groups[g]? with
  | none => s
  | some x =>
    if x.opened.isSome then s else
    let wins := x.wins s.image
    (s.writeRecord (wins.getD 0 0) x.snap emptyRecord).modGroup g fun x => { x with opened := some (s.winDowns wins) }

/-- Are the windows of the group up, and have they been since its slot was opened? -/
def State.slotUp (s : State) (x : Group) : Bool :=
  let wins := x.wins s.image
  s.winsUp wins && x.opened.all (· = s.winDowns wins)

/-- Write stripe k where it is complete. -/
def State.flushStripe (s : State) (g k : Nat) : State :=
  match s.ckpt.groups[g]? with
  | none => s
  | some x =>
    if !x.stripeDone k || x.wrote.contains k then s
    else if !s.slotUp x then s.groupFails g
    else
      let a := stripeAt s.image (x.wins s.image) x.snap k
      ((s.openSlot g).winWrite a.1 a.2 (mBytes 0 (tGet [] x.stripes k) 0 stripeLen)).modGroup g fun x =>
        { x with wrote := x.wrote ++ [k], stripes := tDel x.stripes k }

/-- The record of a slot that parity or a rebuild has filled. What Table 19.4 says of the capture is not known here and
takes free values: GTIME, and MAPGEN of a data shard; for parity MAPGEN is 0. -/
def State.groupRecord (s : State) (x : Group) (len : Nat) : List Byte :=
  let free := fun n => (Config.freeWord (s.freeCtr + n)).toNat
  commitRecord commitMagic x.snap s.mgmt.engId x.index x.id (if x.index ≤ 7 then free 2 else 0) len
    (free 0 + 2 ^ 32 * free 1)

/-- With every end received the slot is committed by R398, LEN the longest; a rebuild ends (R400, R403). -/
def State.groupCommit (s : State) (g : Nat) : State :=
  match s.ckpt.groups[g]? with
  | none => s
  | some x =>
    if !x.sources.all (fun i => (tGet? x.ends i).isSome) then s
    else if !s.slotUp x then s.groupFails g
    else
      let len := x.ends.foldl (fun a e => max a e.2) 0
      let wins := x.wins s.image
      let s := (s.openSlot g).readBack wins x.snap len
      let s := { (s.writeRecord (wins.getD 0 0) x.snap (s.groupRecord x len)) with freeCtr := s.freeCtr + 3 }
      if x.rebuilding then
        (if x.index ≤ 7 then s.modCkpt fun c => { c with last := x.rsnap } else s).rebuildEnds g true
      else s.modGroup g (·.cleared)

/-- A piece arrives: it is added to its stripe, once, and a complete stripe is written (R400). -/
def execParityPiece (p g : Nat) (k : Packet) (s : State) : Out :=
  parityCommand p g k 0 s fun x s =>
    let i := k.rid
    if !x.accepts i || x.members[i]? ≠ some k.seng || x.pieces.contains (i, k.run, k.gen) then s
    else (s.modGroup g (·.addPiece i k)).flushStripe g k.run

/-- An end of shard arrives: stripes that it completes are written, and the last end commits the slot (R400). -/
def execParityEnd (p g : Nat) (k : Packet) (s : State) : Out :=
  parityCommand p g k 1 s fun x s =>
    let i := x.members.idxOf k.seng
    if !x.accepts i then s
    else
      let s := s.modGroup g fun x => { x with ends := tPut x.ends i k.old.toNat }
      let ks := (x.pieces.map (·.2.1)).foldl (fun l k => if l.contains k then l else l ++ [k]) []
      (ks.foldl (fun s k => s.flushStripe g k) s).groupCommit g

/-- A parity member lacks an end packet INTERVAL_S / 4 after the due time: it does not commit (R401). -/
def execParityDeadline (g : Nat) (s : State) : Out :=
  match s.ckpt.groups[g]? with
  | none => .next s
  | some x =>
    if x.pn = 0 || s.clk.master < lateTime s.image x.pn then .next s
    else .next ((s.checkpointLate x.pn).modGroup g (·.cleared))

/-! ## Rebuilding (R403, R404) -/

/-- Does the engine answer HELLO: is one of its pairs in service (R371)? -/
def State.answersHello (s : State) (e : Nat) : Bool :=
  match tGet? s.vdt.peers e with
  | some q => (List.range q.pairs.length).any fun i => !s.vdt.outOf.contains (e, i)
  | none => false

/-- A rebuild request to position j: snapshot in RUN, coefficient in GEN, the lost position in RID. -/
def State.rebuildAsk (s : State) (g : Nat) (x : Group) (left j : Nat) : State :=
  let e := x.members.getD j 0
  let id := s.ckpt.nextOp
  let s := (s.modCkpt fun c => { c with nextOp := id + 1 }).modGroup g fun x => { x with reqs := x.reqs ++ [(id, s.now)] }
  match s.pairFor e 0 with
  | none => s.parityFails id
  | some (lp, rp) => s.vdtSend lp
      { op := .parity, sub := 2, vc := 0, opid := id % 16, serial := id, run := x.rsnap, gen := (rebuildCoeff x.index left j).toNat,
        queue := x.id, rid := x.index, deng := e, seng := s.vdt.selfId, dport := rp, srcEng := s.vdt.selfId, srcKind := 2 }

/-- READY or DEGRADED with REBUILD 1: PARITY_REBUILD, and requests to the eight lowest positions that answer HELLO; with
fewer than eight the rebuild ends (R403). -/
def execRebuildStart (g : Nat) (s : State) : Out :=
  match s.ckpt.groups[g]? with
  | none => .next s
  | some x =>
    if !s.inService || !x.rebuild || x.started || s.mgmt.ksReset.isSome then .next s
    else
      let ps := ((List.range 10).filter fun j => j ≠ x.index && s.answersHello (x.members.getD j 0)).take 8
      let left := ((List.range 10).find? fun j => j ≠ x.index && !ps.contains j).getD 0
      let s := (s.modGroup g fun x => { x.cleared with started := true, rebuilding := true, asked := ps }).event 0x0903 2
        x.rsnap
      if ps.length < 8 || x.refused then .next (s.rebuildEnds g false)
      else .next (ps.foldl (fun s j => s.rebuildAsk g x left j) s)

/-- What the position's slot of snapshot `snap` holds in host memory, where its record is committed: LEN and the shard. -/
def State.slotShard (s : State) (x : Group) (snap : Nat) (host : Mem) : Option (List Byte) :=
  let m := s.image
  let wins := x.wins m
  let base := fun w => (tGet? s.windows w).map (·.base)
  match base (wins.getD 0 0) with
  | none => none
  | some b =>
    let r := fun a n => leNat (mBytes 0 host (b + snap % 2 * parSlot m + a) n)
    if r 0 4 ≠ commitMagic || r 4 4 % 65536 ≠ snap then none
    else
      let len := r 16 8
      some (((List.range (stripeCount len)).map fun k =>
        let a := stripeAt m wins snap k
        mBytes 0 host ((base a.1).getD 0 + a.2) stripeLen).flatten.take len)

/-- What a member answers a rebuild request with: its shard, or none where it refuses. -/
def State.served (s : State) (x : Group) (k : Packet) (img : HostRead) : Option (List Byte) :=
  match img with
  | .failed => none
  | .bytes host _ => if (tGet? s.vdt.peers k.seng).isSome then s.slotShard x k.run host else none

/-- A rebuild request arrives: the member reads the slot from its own host, multiplies each stripe, streams it, and takes
the requester as member INDEX; else it refuses. It waits for a capture of the member's own to end (R403, R405). -/
def execRebuildRequest (p g : Nat) (k : Packet) (img : HostRead) (s : State) : Out :=
  if !s.ckpt.capturing.isEmpty then .next s else
  parityCommand p g k 2 s fun x s =>
    match s.served x k img with
    | some bs =>
      let s := s.modGroup g fun x => { x with members := x.members.set k.rid k.seng }
      s.startStream { gid := x.id, index := x.index, dest := k.seng, len := bs.length, serve := some (k.run % 2),
                      data := (padStripes bs).map (gfMul (BitVec.ofNat 8 k.gen)) }
    | none =>
      let id := s.ckpt.nextOp
      (s.modCkpt fun c => { c with nextOp := id + 1 }).sendBack p k
        { op := .parity, sub := 3, vc := 0, opid := id % 16, serial := id, queue := x.id, rid := x.index, srcEng := s.vdt.selfId, srcKind := 2 }

/-- A member refuses: the rebuild ends without success (R403). -/
def execRebuildRefusal (p g : Nat) (k : Packet) (s : State) : Out :=
  parityCommand p g k 3 s fun x s => if x.accepts (x.members.idxOf k.seng) then s.rebuildEnds g false else s

end Sys2Proof.Machine
end

