-- ==== Sys2Proof/Machine/Elementary.lean ====
section
/-! DEFINITION. The elementary functions of Table 04.9: their values to within 2^-140, and a binary32 result that differs
from the exact one by no more than the table's bound (R96, R109, R111; log 7). -/

namespace Sys2Proof.Machine

/-! ## Fixed point with 160 fraction bits -/

def fxOne : Int := 2 ^ 160
/-- A rational as a fixed-point number, and back. -/
def fx (x : Rat) : Int := (x * ((2 ^ 160 : Nat) : Rat)).floor
def unfx (a : Int) : Rat := (a : Rat) / ((2 ^ 160 : Nat) : Rat)
def fxMul (a b : Int) : Int := a * b / fxOne

/-- ln 2 and 1 / sqrt (2 pi), times 2^160. -/
def fxLn2 : Int := 1013035739299659071135698605846798551586536899366
def fxPhi0 : Int := 583054796007218040734191730443699882195345907504

/-- Sum of the terms that `next k` forms one from another, k counting from 1. -/
def fxSeries (next : Nat → Int → Int) : Nat → Nat → Int → Int → Int
  | 0, _, _, sum => sum
  | fuel + 1, k, t, sum => fxSeries next fuel (k + 1) (next k t) (sum + t)

/-! ## The functions -/

/-- A rational held between two bounds. -/
def clampR (lo hi x : Rat) : Rat := if x < lo then lo else if hi < x then hi else x

/-- 2^n × e^z for a fixed-point z from 0 to ln 2. -/
def expParts (n : Int) (z : Int) : Rat := unfx (fxSeries (fun k t => fxMul t z / k) 56 1 fxOne 0) * pow2 n

def exp2R (x : Rat) : Rat :=
  let y := clampR (-200) 200 x
  expParts y.floor (fxMul (fx (y - (y.floor : Rat))) fxLn2)

def expR (x : Rat) : Rat :=
  let y := fx (clampR (-300) 300 x)
  expParts (y / fxLn2) (y % fxLn2)

/-- ln m for m from 1 to 2: twice the series of the inverse hyperbolic tangent of (m - 1) / (m + 1). -/
def lnMant (m : Rat) : Rat :=
  let t := fx ((m - 1) / (m + 1))
  2 * unfx ((List.range 64).foldl (fun (st : Int × Int) k => (st.1 + st.2 / (2 * k + 1 : Nat), fxMul (fxMul t t) st.2)) (0, t)).1

def lnR (x : Rat) : Rat := (flog2 x : Rat) * unfx fxLn2 + lnMant (x / pow2 (flog2 x))
def log2R (x : Rat) : Rat := (flog2 x : Rat) + lnMant (x / pow2 (flog2 x)) / unfx fxLn2
def tanhR (x : Rat) : Rat := 1 - 2 / (expR (2 * clampR (-128) 128 x) + 1)
def sigmoidR (x : Rat) : Rat := 1 / (1 + expR (-x))

/-- The distribution function of the standard normal law. -/
def phiR (x : Rat) : Rat :=
  let y := clampR (-16) 16 x
  let z := fx y
  1 / 2 + unfx (fxSeries (fun k t => fxMul (fxMul z z) t / (2 * k + 1 : Nat)) 700 1 z 0) * unfx fxPhi0 * expR (-(y * y) / 2)

/-! ## Delivery -/

/-- The exact value of a micro-op 0x11 to 0x18 on a finite operand, to within 2^-140. GELU is x × Phi(x) (PRESUMED,
log 7). -/
def elementary (op : Nat) (x : Rat) : Rat :=
  match op with
  | 0x11 => exp2R x
  | 0x12 => expR x
  | 0x13 => log2R x
  | 0x14 => lnR x
  | 0x15 => tanhR x
  | 0x16 => sigmoidR x
  | 0x17 => x * phiR x
  | _ => x * sigmoidR x

/-- Is the exact result negative? -/
def elemNeg (op : Nat) (x : Rat) : Bool :=
  if op = 0x11 || op = 0x12 || op = 0x16 then false else if op = 0x13 || op = 0x14 then x < 1 else x < 0

/-- The bound of Table 04.9 at an exact result of magnitude `m`. -/
def elemBound (op : Nat) (m : Rat) : Rat :=
  let ulps : Rat := if op = 0x11 || op = 0x13 then 2 else if op = 0x12 || op = 0x14 then 3 else 4
  let b := if m = 0 then 0 else ulps * ulp 24 m
  if op ≤ 0x12 || pow2 (-22) < b then b else pow2 (-22)

/-- Round a rational of either sign to 24 significand bits. -/
def round24 (v : Rat) : Rat := if v = 0 then 0 else if v < 0 then -(roundP 24 (-v)) else roundP 24 v

/-- The value the engine computes for the exact `v`: the nearest, or a free one within the bound (R109). -/
def elemComputed (op a : Nat) (v : Rat) : Rat :=
  let r := round24 v
  let c := round24 (r + (Config.finite op [a] : Rat) * pow2 (-149))
  if rabs (c - v) ≤ elemBound op (rabs v) then c else r

/-- A transcendental micro-op on an ordinary operand: an infinity with OF at or above 2^128, a zero of the exact result's
sign with UF and NX below 2^-126, the computed value otherwise (R96, R103, R109). -/
def trans32 (op a : Nat) : Nat × AFlags :=
  let x := (num32 a).val
  let w := elemComputed op a (elementary op x)
  let g := rabs w
  if pow2 128 ≤ g then (infCode (ffmt 0) (w < 0), fOF)
  else if g < pow2 (-126) then (signBit (ffmt 0) (elemNeg op x), fUF ||| fNX)
  else (encodeF (ffmt 0) (w < 0) g, if Config.inexact op (BitVec.ofNat 32 a) then fNX else 0)

end Sys2Proof.Machine
end

