-- ==== Sys2Proof/Machine/VectorDesc.lean ====
section
/-! DEFINITION. The vector descriptor, its ranges and its checks, and the element program (R131 to R137, R141). -/

namespace Sys2Proof.Machine

/-! ## The descriptor (R131 to R135) -/

structure VSlot where
  fmt : Nat
  role : Nat
  bcast : Bool
  cons : Bool
  off : Nat
  s1 : Nat
  s2 : Nat
  s3 : Nat
  deriving DecidableEq, Repr

structure VDesc where
  d0 : Nat
  d1 : Nat
  d2 : Nat
  d3 : Nat
  pl : Nat
  cf : Nat
  prog : Nat
  cslot : Nat
  cslotEn : Bool
  cval : Nat
  sumEn : Bool
  compEn : Bool
  slots : List VSlot
  redEn : Bool
  rint : Bool
  rsrc : Nat
  rsrc2 : Nat
  rdim : Nat
  rout : Nat
  routEn : Bool
  rec_ : List Nat
  sumsel : List Nat
  compOff : Nat
  reserved : Bool
  deriving DecidableEq, Repr

def vdesc (ws : List Word) : VDesc :=
  let w := fun i lo n => bitsW (ws.getD i 0) lo n
  { d0 := w 0 0 12 + 1, d1 := w 0 12 12 + 1, d2 := w 0 24 8 + 1, d3 := w 1 0 8 + 1, pl := w 1 8 5 + 1, cf := w 1 13 3,
    prog := w 1 16 16, cslot := w 2 0 4, cslotEn := w 2 4 1 = 1, cval := w 2 5 3, sumEn := w 2 8 1 = 1,
    compEn := w 2 9 1 = 1,
    slots := (List.range 4).map fun k =>
      ⟨w 3 (8 * k) 4, w 3 (8 * k + 4) 2, w 3 (8 * k + 6) 1 = 1, w 3 (8 * k + 7) 1 = 1, w (6 + 2 * k) 0 16,
        w (6 + 2 * k) 16 16, w (7 + 2 * k) 0 16, w (7 + 2 * k) 16 16⟩,
    redEn := w 4 0 1 = 1, rint := w 4 1 1 = 1, rsrc := w 4 2 4, rsrc2 := w 4 6 4, rdim := w 4 10 2, rout := w 4 12 2,
    routEn := w 4 14 1 = 1, rec_ := (List.range 4).map fun i => w 4 (16 + 3 * i) 3,
    sumsel := (List.range 4).map fun i => w 5 (3 * i) 3, compOff := w 5 16 16,
    reserved := w 2 10 22 ≠ 0 || w 4 15 1 ≠ 0 || w 4 28 4 ≠ 0 || w 5 12 4 ≠ 0 || w 14 0 32 ≠ 0 }

def noSlot : VSlot := ⟨0, 0, false, false, 0, 0, 0, 0⟩
def VDesc.slot (d : VDesc) (k : Nat) : VSlot := d.slots.getD k noSlot

/-- The format of each compute format code (Table 06.1). -/
def cfFmt (cf : Nat) : Nat := [0, 1, 2, 3, 4, 8, 9, 0].getD cf 0
def VDesc.f (d : VDesc) : Nat := cfFmt d.cf
/-- The program's width W and its lanes. -/
def VDesc.w (d : VDesc) : Nat := fmtBits d.f
def VDesc.lanes (d : VDesc) : Nat := 512 / d.w
def VDesc.dim (d : VDesc) (j : Nat) : Nat := if j = 0 then d.d0 else if j = 1 then d.d1 else if j = 2 then d.d2 else d.d3
def VDesc.rows (d : VDesc) : Nat := d.d1 * d.d2 * d.d3

def VSlot.isIn (v : VSlot) : Bool := v.role = 1
def VSlot.isOut (v : VSlot) : Bool := v.role = 2
def VSlot.isScale (v : VSlot) : Bool := v.role = 3
def VDesc.isRout (d : VDesc) (k : Nat) : Bool := d.routEn && d.rout = k

/-- The block-scaled slot that slot `k` holds the scales (0) or sub-scales (1) of. -/
def VDesc.scaleOf (d : VDesc) (k : Nat) : Option (Nat × Nat) :=
  if !(d.slot k).isScale then none
  else if 1 ≤ k && isBlock (d.slot (k - 1)).fmt && !(d.slot (k - 1)).isScale then some (k - 1, 0)
  else if 2 ≤ k && (d.slot (k - 2)).fmt = 15 && !(d.slot (k - 2)).isScale then some (k - 2, 1)
  else none

/-- Words of a record (R139). -/
def VDesc.recWords (d : VDesc) : Nat := (d.rec_.takeWhile (· ≠ 0)).length

/-- Bytes that slot `k` touches for fixed d1, d2, d3. -/
def VDesc.rowBytes (d : VDesc) (k : Nat) : Nat :=
  let v := d.slot k
  if d.isRout k then (if d.rdim = 0 then 4 * d.recWords else 4 * d.recWords * d.d0)
  else match d.scaleOf k with
    | some (_, j) => if j = 0 then d.d0 / 32 else 4 * (d.d0 / 32)
    | none => if v.bcast then elemBytes v.fmt 1 else elemBytes v.fmt d.d0

/-- The lowest and the highest byte that slot `k` touches; none for an unused slot. -/
def VDesc.range (d : VDesc) (k : Nat) : Option (Nat × Nat) :=
  let v := d.slot k
  if v.role = 0 then none
  else
    let use := fun j n s => if d.isRout k && d.rdim = j then 0 else (n - 1) * s
    some (v.off, v.off + use 1 d.d1 v.s1 + use 2 d.d2 v.s2 + use 3 d.d3 v.s3 + d.rowBytes k - 1)

/-- Is slot `k` written: an output, or the scales of one? -/
def VDesc.written (d : VDesc) (k : Nat) : Bool :=
  (d.slot k).isOut || (match d.scaleOf k with | some (j, _) => (d.slot j).isOut | none => false)
def VDesc.readSlot (d : VDesc) (k : Nat) : Bool :=
  (d.slot k).isIn || (match d.scaleOf k with | some (j, _) => (d.slot j).isIn | none => false)

/-- Where row (d1, d2, d3) of slot `k` begins. -/
def VSlot.at_ (v : VSlot) (i1 i2 i3 : Nat) : Nat := v.off + i1 * v.s1 + i2 * v.s2 + i3 * v.s3

/-! ## Micro-ops (R137, Table 06.4) -/

structure MOp where
  opc : Nat
  d : Nat
  a : Nat
  b : Nat
  c : Nat
  s : Nat
  sh : Nat
  imm : Nat
  rest : Nat
  deriving DecidableEq, Repr

def mop (w : Word) : MOp :=
  ⟨bitsW w 0 6, bitsW w 6 4, bitsW w 10 4, bitsW w 14 4, bitsW w 18 4, bitsW w 22 2, bitsW w 24 5, bitsW w 16 16,
    bitsW w 29 3⟩

/-- The fields a micro-op uses: D, A, B, C, S, SH. -/
def mopUses (o : Nat) : Bool × Bool × Bool × Bool × Bool × Bool :=
  let y := true
  let n := false
  match o with
  | 0x00 => (n, n, n, n, n, n)
  | 0x01 => (y, n, n, n, y, n)
  | 0x02 => (n, y, n, n, y, n)
  | 0x04 => (y, y, n, n, n, n)
  | 0x08 => (y, y, y, y, n, n)
  | 0x1D => (y, y, y, y, n, n)
  | 0x2C => (y, n, n, n, y, n)
  | 0x28 | 0x29 | 0x2A => (y, y, n, n, n, y)
  | 0x0B | 0x0C | 0x0D | 0x0F | 0x10 | 0x11 | 0x12 | 0x13 | 0x14 | 0x15 | 0x16 | 0x17 | 0x18 | 0x1E | 0x1F =>
    (y, y, n, n, n, n)
  | _ => (y, y, y, n, n, n)

/-- The widths a micro-op is permitted at. -/
def mopWidth (o w : Nat) : Bool :=
  if o ≤ 0x04 || (0x09 ≤ o && o ≤ 0x0C) || (0x19 ≤ o && o ≤ 0x1D) then true
  else if o ≤ 0x18 then w ≠ 8
  else w = 32

/-- Code 2 of Table 06.7 for one micro-op. -/
def MOp.bad (m : MOp) (w : Nat) : Bool :=
  if 0x2D ≤ m.opc then true
  else if !mopWidth m.opc w then true
  else if m.opc = 0x03 then m.a ≠ 0 || m.b % 4 ≠ 0
  else
    let u := mopUses m.opc
    m.rest ≠ 0 || (!u.1 && m.d ≠ 0) || (!u.2.1 && m.a ≠ 0) || (!u.2.2.1 && m.b ≠ 0) || (!u.2.2.2.1 && m.c ≠ 0)
      || (!u.2.2.2.2.1 && m.s ≠ 0) || (!u.2.2.2.2.2 && m.sh ≠ 0)

/-! ## Values of the compute format -/

/-- The value of a temporary. -/
def cfNum (f c : Nat) : Num := (decode f c).1
/-- The code of a value that the compute format holds. -/
def cfCode (f : Nat) (v : Num) : Nat :=
  if f < 8 then
    (match v with
      | .nan => nanCode (ffmt f)
      | .inf n => infCode (ffmt f) n
      | .fin n x => if x = 0 then signBit (ffmt f) n else encodeF (ffmt f) n x)
  else intCode f v.val.floor

/-- A temporary as binary32 (R102 step 1). -/
def cfTo32 (f c : Nat) : Nat := (toBinary32 f c none noSub).1

/-- A binary32 result delivered in the compute format (R111). A result that is an infinity or a NaN raises no NX, though
its binary32 step was inexact (Table 04.5, R103). -/
def to_cf (f : Nat) (r : Nat × AFlags) : Nat × AFlags :=
  if f = 0 then r
  else
    let q := convert f r.1 true
    let fl := r.2 ||| q.2
    match cfNum f q.1 with
    | .fin _ _ => (q.1, fl)
    | _ => (q.1, fl &&& ~~~fNX)

/-- An integer result in an integer format, saturating with OF (R111). -/
def satTo (f : Nat) (v : Int) : Nat × AFlags :=
  let r := intRange f
  if v < r.1 then (intCode f r.1, fOF) else if r.2 < v then (intCode f r.2, fOF) else (intCode f v, 0)

def sat32 (v : Int) : Nat × AFlags :=
  if v < -2147483648 then (0x80000000, fOF) else if 2147483647 < v then (0x7FFFFFFF, fOF)
  else ((BitVec.ofInt 32 v).toNat, 0)

def int32 (c : Nat) : Int := (BitVec.ofNat 32 c).toInt

/-- MAX or MIN of two values (R99). -/
def extreme (isMax : Bool) (f a b : Nat) : Nat × AFlags :=
  let x := cfNum f a
  let y := cfNum f b
  if x.isNan && y.isNan then (cfCode f .nan, fNV)
  else if x.isNan then (cfCode f y, 0)
  else if y.isNan then (cfCode f x, 0)
  else if isMax then (cfCode f (if numLt x y then y else x), 0) else (cfCode f (if numLt y x then y else x), 0)

/-- ABS and NEG (R97, R100). -/
def absNeg (isAbs : Bool) (f a : Nat) : Nat × AFlags :=
  let x := cfNum f a
  if f < 8 then
    (match x with
      | .nan => (cfCode f .nan, fNV)
      | x => (cfCode f (if isAbs then (if x.neg then x.flip else x) else x.flip), 0))
  else satTo f (if isAbs then (rabs x.val).floor else (-x.val).floor)

def compare_ (o f a b : Nat) : Bool :=
  let x := cfNum f a
  let y := cfNum f b
  match o with
  | 0x19 => numEq x y
  | 0x1A => !numEq x y
  | 0x1B => numLt x y && !numEq x y
  | _ => numLe x y

/-- The unary functions of Table 04.9 on a binary32 operand. -/
def unary32 (o a : Nat) : Nat × AFlags :=
  let inf := fun n => infCode (ffmt 0) n
  let one := 0x3F800000
  match o, num32 a with
  | 0x0D, _ => div32 o 1 one a
  | 0x0F, _ => sqrt32 o a
  | 0x10, _ => rsqrt32 o a
  | _, .nan => (nan32, fNV)
  | 0x11, .inf n => (if n then 0 else inf false, 0)
  | 0x12, .inf n => (if n then 0 else inf false, 0)
  | 0x11, _ => trans32 o a
  | 0x12, _ => trans32 o a
  | 0x13, v => if v.isZero then (inf true, fDZ) else if v.neg then (nan32, fNV) else if v.isInf then (inf false, 0)
      else if a = one then (0, 0) else trans32 o a
  | 0x14, v => if v.isZero then (inf true, fDZ) else if v.neg then (nan32, fNV) else if v.isInf then (inf false, 0)
      else if a = one then (0, 0) else trans32 o a
  | 0x15, v => if v.isInf then (signBit (ffmt 0) v.neg + one, 0) else if v.isZero then (signBit (ffmt 0) v.neg, 0)
      else trans32 o a
  | 0x16, v => if v.isInf then (if v.neg then 0 else one, 0) else trans32 o a
  | _, v => if v.isInf then (if v.neg then signBit (ffmt 0) true else inf false, 0)
      else if v.isZero then (signBit (ffmt 0) v.neg, 0) else trans32 o a

/-- A micro-op on temporaries and immediates: the result and its flags. -/
def alu (f : Nat) (m : MOp) (a b c : Nat) : Nat × AFlags :=
  let x := cfTo32 f a
  let y := cfTo32 f b
  let z := cfTo32 f c
  match m.opc with
  | 0x03 => convert f (m.imm * 65536)
  | 0x04 => (a, 0)
  | 0x05 => to_cf f (add32 5 [] x y true)
  | 0x06 => to_cf f (add32 6 [] x (if (num32 y).isNan then y else num2nat (num32 y).flip) true)
  | 0x07 => to_cf f (fma32 7 x y none)
  | 0x08 => to_cf f (fma32 8 x y (some z))
  | 0x09 => extreme true f a b
  | 0x0A => extreme false f a b
  | 0x0B => absNeg true f a
  | 0x0C => absNeg false f a
  | 0x0E => to_cf f (div32 14 2 x y)
  | 0x19 | 0x1A | 0x1B | 0x1C => (if compare_ m.opc f a b then 1 else 0, 0)
  | 0x1D => (if c ≠ 0 then a else b, 0)
  | 0x1E =>
    let r := toIntRange rneInt (-2147483648) 2147483647 a
    ((BitVec.ofInt 32 r.1).toNat, r.2)
  | 0x1F =>
    let v : Rat := (int32 a : Rat)
    if v = 0 then (0, 0) else fit32 (v < 0) (roundP 24 (rabs v)) (rabs v)
  | 0x20 => sat32 (int32 a + int32 b)
  | 0x21 => sat32 (int32 a - int32 b)
  | 0x22 => sat32 (int32 a * int32 b)
  | 0x23 => (if int32 a < int32 b then b else a, 0)
  | 0x24 => (if int32 b < int32 a then b else a, 0)
  | 0x25 => (a &&& b, 0)
  | 0x26 => (a ||| b, 0)
  | 0x27 => (a ^^^ b, 0)
  | 0x28 => ((BitVec.ofNat 32 a <<< m.sh).toNat, 0)
  | 0x29 => ((BitVec.ofNat 32 a >>> m.sh).toNat, 0)
  | 0x2A => (((BitVec.ofNat 32 a).sshiftRight m.sh).toNat, 0)
  | 0x2B => (if int32 a < int32 b then 1 else 0, 0)
  | o => to_cf f (unary32 o x)

/-! ## The program on one element (R134, R136, R145) -/

/-- The element of input slot `k` in the compute format, with the flags of reading it. -/
def VDesc.load (d : VDesc) (v : View) (k i0 i1 i2 i3 : Nat) : Nat × AFlags :=
  let sl := d.slot k
  let pos := if sl.bcast then 0 else i0
  let e := v.elem (sl.at_ i1 i2 i3) sl.fmt pos
  let sa := (d.slot (k + 1)).at_ i1 i2 i3 + pos / 32
  let ua := (d.slot (k + 2)).at_ i1 i2 i3 + pos / 8
  let scale := if isBlock sl.fmt then scaleAt v sa else none
  let sub := if sl.fmt = 15 then (if v.bad ua then .nan else decodeF (ffmt 4) (v.rd ua)) else noSub
  let w := if e.2 then (nan32, fNV) else toBinary32 sl.fmt e.1 scale sub
  let r := convert d.f w.1
  (r.1, w.2 ||| r.2)

/-- What one element's program has done: temporaries, flags, values stored by slot. -/
structure Lane where
  ts : List Nat := List.replicate 16 0
  fl : AFlags := 0
  outs : List (Nat × Nat) := []
  deriving DecidableEq, Repr

/-- STORE: the code in the slot's format, or the binary32 value where the slot is block-scaled. -/
def VDesc.store (d : VDesc) (k c : Nat) : Nat × AFlags :=
  let f := (d.slot k).fmt
  let w := toBinary32 d.f c none noSub
  if isBlock f then w
  else
    let r := convert f w.1
    (r.1, w.2 ||| r.2)

def VDesc.runOp (d : VDesc) (v : View) (i0 i1 i2 i3 : Nat) (l : Lane) (m : MOp) : Lane :=
  let t := fun i => l.ts.getD i 0
  match m.opc with
  | 0x00 => l
  | 0x01 =>
    let r := d.load v m.s i0 i1 i2 i3
    { l with ts := l.ts.set m.d r.1, fl := l.fl ||| r.2 }
  | 0x02 =>
    let r := d.store m.s (t m.a)
    { l with outs := l.outs ++ [(m.s, r.1)], fl := l.fl ||| r.2 }
  | 0x2C => { l with ts := l.ts.set m.d (if m.s = 0 then i0 else if m.s = 1 then i1 else if m.s = 2 then i2 else i3) }
  | _ =>
    let r := alu d.f m (t m.a) (t m.b) (t m.c)
    { l with ts := l.ts.set m.d r.1, fl := l.fl ||| r.2 }

def VDesc.runElem (d : VDesc) (v : View) (ms : List MOp) (i0 i1 i2 i3 : Nat) : Lane :=
  ms.foldl (d.runOp v i0 i1 i2 i3) {}

/-- The program as it runs: an uncorrectable word is a NOP (R145). -/
def program (ws : List Word) (badProg : List Nat) : List MOp :=
  (List.range ws.length).map fun i => if badProg.contains i then ⟨0, 0, 0, 0, 0, 0, 0, 0, 0⟩ else mop (ws.getD i 0)

end Sys2Proof.Machine
end

