-- ==== Sys2Proof/Machine/Sparse.lean ====
section
/-! DEFINITION. The compressor behind a vector descriptor: its descriptor and checks, N:M groups, row-segment streams,
selection and audit (R158 to R167). -/

namespace Sys2Proof.Machine

/-! ## The descriptor (R158) -/

structure CDesc where
  form : Nat
  nmpat : Nat
  prune : Bool
  guardEn : Bool
  sel : Nat
  nc : Nat
  segmax : Nat
  outOff : Nat
  outLen : Nat
  meta_ : Nat
  guardOff : Nat
  thresh : Nat
  topk : Nat
  missLimit : Nat
  listOff : Nat
  reserved : Bool
  /-- consumers: address and signal offset -/
  cons : List (BitVec 48 × Nat)
  deriving DecidableEq, Repr

def cdesc (ws : List Word) : CDesc :=
  let w := fun i lo n => bitsW (ws.getD i 0) lo n
  { form := w 0 0 2, nmpat := w 0 2 2, prune := w 0 4 1 = 1, guardEn := w 0 5 1 = 1, sel := w 0 6 2, nc := w 0 8 4,
    segmax := w 0 12 8 + 1, outOff := w 1 0 16, outLen := w 1 16 16, meta_ := w 2 0 16, guardOff := w 2 16 16,
    thresh := w 3 0 32, topk := w 4 0 8 + 1, missLimit := w 4 8 8, listOff := w 4 16 16, reserved := w 0 20 12 ≠ 0,
    cons := (List.range (w 0 8 4)).map fun i =>
      (((ws.getD (9 + 2 * i) 0).setWidth 16 : BitVec 16) ++ ws.getD (8 + 2 * i) 0, w (9 + 2 * i) 16 16) }

/-- Words of a compressor descriptor with `nc` consumers. -/
def cdescWords (nc : Nat) : Nat := 8 + 2 * nc

/-- The output slot whose values pass to the compressor: the lowest-numbered one that is not ROUT (R146). -/
def VDesc.compSlot (d : VDesc) : Option Nat := (List.range 4).find? fun k => (d.slot k).isOut && !d.isRout k
def VDesc.compFmt (d : VDesc) : Nat := (d.slot (d.compSlot.getD 0)).fmt

/-- Positions and values of a group, groups of a row, and the bytes of a row's slots and metadata (R147). -/
def CDesc.m (c : CDesc) : Nat := if c.nmpat = 2 then 8 else 4
def CDesc.n (c : CDesc) : Nat := if c.nmpat = 1 then 1 else 2
def CDesc.groups (c : CDesc) (d : VDesc) : Nat := ceilDiv d.d0 c.m
def CDesc.slotBytes (c : CDesc) (d : VDesc) : Nat := elemBytes d.compFmt (c.groups d * c.n)
def CDesc.metaFmt (c : CDesc) : Nat := if c.nmpat = 0 then 5 else if c.nmpat = 1 then 10 else 9
def CDesc.mr (c : CDesc) (d : VDesc) : Nat := elemBytes c.metaFmt (c.groups d)

/-- The local output regions of R163: offset and length. -/
def CDesc.outRegions (c : CDesc) (d : VDesc) : List (Nat × Nat) :=
  if c.form = 0 then [(c.outOff, d.rows * c.outLen), (c.meta_, d.rows * c.mr d)]
  else if (c.form = 1 || c.form = 2) && c.nc = 0 then [(c.outOff, c.outLen)]
  else []

/-- The index list of FORM 3, read to its END header or to 0xFFFF. -/
def CDesc.list (c : CDesc) (d : VDesc) (v : View) : Stream :=
  readStream v c.listOff (0x10000 - c.listOff) 0 d.rows d.d0 false 16384 0 none {}

/-- The local input regions of R163. -/
def CDesc.inRegions (c : CDesc) (d : VDesc) (v : View) : List (Nat × Nat) :=
  if c.form = 2 && c.guardEn then [(c.guardOff, ceilDiv d.d0 8)]
  else if c.form = 3 then [(c.listOff, (c.list d v).bytes)]
  else []

/-- Does any range of the first list meet one of the second? -/
def meetAny (as bs : List (Nat × Nat)) : Bool := as.any fun a => bs.any fun b => hullsMeet (hull [a]) (hull [b])

/-- Do two members of the list meet? -/
def meetWithin : List (Nat × Nat) → Bool
  | [] => false
  | a :: as => meetAny [a] as || meetWithin as

/-- Fields that the FORM does not use (R158). -/
def CDesc.unusedSet (c : CDesc) (ws : List Word) : Bool :=
  let w := fun i lo n => bitsW (ws.getD i 0) lo n
  (c.form ≠ 0 && (w 0 2 3 ≠ 0 || c.meta_ ≠ 0))
    || (c.form ≠ 2 && (w 0 5 3 ≠ 0 || c.guardOff ≠ 0 || c.thresh ≠ 0 || w 4 0 8 ≠ 0))
    || (c.form ≠ 3 && w 4 8 24 ≠ 0)
    || ((c.form = 0 || c.form = 3) && (c.nc ≠ 0 || w 0 12 8 ≠ 0))
    || (c.form = 3 && w 1 0 32 ≠ 0)

/-- The checks of R159. -/
def CDesc.bad (c : CDesc) (ws : List Word) (d : VDesc) (off : Nat) (v : View) : Bool :=
  let regions := c.outRegions d ++ c.inRegions d v ++ [(d.compOff, 4 * cdescWords c.nc)]
  let others := [(off, 64), (d.prog, 4 * d.pl)] ++ (List.range 4).filterMap fun k =>
    (d.range k).map fun r => (r.1, r.2 + 1 - r.1)
  c.reserved || c.unusedSet ws || (c.form = 0 && c.nmpat = 3) || (c.form = 2 && c.sel = 3) || 8 < c.nc
    || (c.form = 1 && (isBlock d.compFmt || is6bit d.compFmt))
    || 4096 < d.rows
    || regions.any (fun r => beyond [r]) || meetAny regions others || meetWithin regions
    || (c.form = 0 && (c.outLen < c.slotBytes d || (c.nmpat = 0 && c.meta_ % 3 ≠ 0)))
    || c.cons.any fun k => (spaceOf k.1 ≠ 0 && spaceOf k.1 ≠ 5) || addrReserved k.1 || addrNoTile k.1

/-! ## Values (R160) -/

/-- A value that passes to the compressor: its decoded value and its code. -/
structure CVal where
  val : Num
  code : Nat
  deriving DecidableEq, Repr

def CVal.zero : CVal := ⟨.fin false 0, 0⟩
def CVal.isNonzero (v : CVal) : Bool := !v.val.isZero

/-- Larger in magnitude; NaN above every number. -/
def magLt (a b : Num) : Bool :=
  if b.isNan then !a.isNan else if a.isNan then false
  else if b.isInf then !a.isInf else if a.isInf then false else a.mag < b.mag

/-- Larger in value; NaN above every number (R165). -/
def scoreLt (a b : Num) : Bool :=
  if b.isNan then !a.isNan else if a.isNan then false else numLe a b && !numEq a b

/-- The `n` best positions of `is`, by `lt` on their values; among equals the lower one. -/
def best (lt : Num → Num → Bool) (f : Nat → Num) : Nat → List Nat → List Nat
  | 0, _ => []
  | n + 1, is =>
    match is.foldl (fun (b : Option Nat) i => match b with
      | none => some i
      | some j => if lt (f j) (f i) then some i else some j) none with
    | none => []
    | some j => j :: best lt f n (is.filter (· ≠ j))

/-! ## FORM 0 (R161) -/

/-- A row in N:M form as it is built: slot codes, escape codes, metadata entries, over-full groups. -/
structure NmOut where
  slots : List Nat := []
  esc : List Nat := []
  entries : List Nat := []
  overs : Nat := 0
  deriving DecidableEq, Repr

/-- Escape values that a row has room for. -/
def CDesc.escStart (c : CDesc) (d : VDesc) : Nat := 4 * ceilDiv (c.slotBytes d) 4
def CDesc.escRoom (c : CDesc) (d : VDesc) : Nat :=
  let n := c.outLen - c.escStart d
  if is6bit d.compFmt then 4 * (n / 3) else n * 8 / fmtBits d.compFmt

def CDesc.entry (c : CDesc) (idx : List Nat) : Nat :=
  let i := fun j => idx.getD j 0
  idx.length + (if c.nmpat = 2 then 4 * i 0 + 32 * i 1 else if c.nmpat = 1 then 4 * i 0 else 4 * i 0 + 16 * i 1)

def CDesc.nmGroup (c : CDesc) (d : VDesc) (row : List CVal) (o : NmOut) (g : Nat) : NmOut :=
  let v := fun i => row.getD (g * c.m + i) .zero
  let nz := (List.range c.m).filter fun i => (v i).isNonzero
  if c.n < nz.length && !c.prune && o.esc.length + c.m ≤ c.escRoom d then
    { o with slots := o.slots ++ List.replicate c.n 0, esc := o.esc ++ (List.range c.m).map fun i => (v i).code,
             entries := o.entries ++ [3], overs := o.overs + 1 }
  else
    let kept := best magLt (fun i => (v i).val) c.n nz
    let idx := nz.filter kept.contains
    let cs := idx.map fun i => (v i).code
    { o with slots := o.slots ++ cs ++ List.replicate (c.n - cs.length) 0, entries := o.entries ++ [c.entry idx],
             overs := o.overs + if c.n < nz.length then 1 else 0 }

def CDesc.nmRow (c : CDesc) (d : VDesc) (row : List CVal) : NmOut :=
  (List.range (c.groups d)).foldl (c.nmGroup d row) {}

/-! ## Streams (R162, R163) -/

/-- A stream as it is built: its bytes, whether a segment did not fit, and how many were not delivered. -/
structure Strm where
  bytes : List Byte := []
  stopped : Bool := false
  lost : Nat := 0
  deriving DecidableEq, Repr

def Strm.push (outLen : Nat) (seg : List Byte) (s : Strm) : Strm :=
  if s.stopped || outLen < s.bytes.length + seg.length + 4 then { s with stopped := true, lost := s.lost + 1 }
  else { s with bytes := s.bytes ++ seg }

/-- The stream with its END header. -/
def Strm.close (s : Strm) : List Byte := s.bytes ++ leBytes 4 0x80000000

def pad4 (bs : List Byte) : List Byte := bs ++ List.replicate (4 * ceilDiv bs.length 4 - bs.length) 0

/-- A segment (R151, Table 07.2); index-only where `b` is 0. -/
def segment (row : Nat) (cont : Bool) (b : Nat) (es : List (Nat × Nat)) : List Byte :=
  leBytes 4 (row % 4096 + (es.length - 1) * 4096 + (if cont then 2 ^ 20 else 0) + (if b = 0 then 2 ^ 30 else 0))
    ++ pad4 ((es.map fun e => leBytes 2 e.1).flatten)
    ++ (if b = 0 then [] else pad4 (packElems b (es.map (·.2))))

/-- The segments of a row. -/
def CDesc.cut (c : CDesc) (row b : Nat) (es : List (Nat × Nat)) : List (List Byte) :=
  (chunks c.segmax es).map (segment row (c.segmax < es.length) b)

/-- Deal the segments: FORM 1 one to each stream in turn, FORM 2 each to every stream. -/
def CDesc.deal (c : CDesc) (segs : List (List Byte)) : List Strm :=
  let k := max 1 c.nc
  (List.range k).map fun i =>
    (List.range segs.length).foldl (fun s j =>
      if c.form = 2 || j % k = i then s.push c.outLen (segs.getD j []) else s) {}

/-- The PUTs of at most 256 bytes and the SIGNAL of consumer `i` (R163). -/
def consOut (i : Nat) (k : BitVec 48 × Nat) (bs : List Byte) : List CompOut :=
  (List.range (ceilDiv bs.length 256)).map (fun j =>
    (⟨i, (k.1.extractLsb' 16 32 ++ (k.1.setWidth 16 + BitVec.ofNat 16 (256 * j)) : BitVec 48), (bs.drop (256 * j)).take 256,
      false⟩ : CompOut))
    ++ [⟨i, (k.1.extractLsb' 16 32 ++ BitVec.ofNat 16 k.2 : BitVec 48), [], true⟩]

/-! ## Selection (R165) -/

def CDesc.selected (c : CDesc) (d : VDesc) (v : View) (row : List CVal) : List Nat :=
  let val := fun i => (row.getD i .zero).val
  let all := List.range d.d0
  let chosen :=
    if c.sel = 0 then all.filter fun i => (val i).isNan || numLe (num32 c.thresh) (val i)
    else if c.sel = 1 then
      (if d.d0 ≤ c.topk then all else
        let b := best scoreLt val c.topk all
        all.filter b.contains)
    else all.filter fun i => (row.getD i .zero).isNonzero
  all.filter fun i => chosen.contains i
    || (c.guardEn && (v.bad (c.guardOff + i / 8) || v.rd (c.guardOff + i / 8) / 2 ^ (i % 8) % 2 = 1))

/-! ## What the compressor does with the rows of values -/

/-- Its writes by local region, its PUTs and SIGNALs, the SPARSE_ occurrences, the counts of its status word. -/
structure CompRes where
  writes : List (Nat × Nat × List Byte) := []
  out : List CompOut := []
  occ : Occ := {}
  overs : Nat := 0
  segs : Nat := 0
  hits : Nat := 0
  misses : Nat := 0
  miss : Bool := false
  ecc : Bool := false
  deriving DecidableEq, Repr

/-- Streams delivered: to the local region, or to the consumers. -/
def CDesc.streams (c : CDesc) (segs : List (List Byte)) : CompRes :=
  let ss := c.deal segs
  let lost := ss.foldl (fun n s => n + s.lost) 0
  let r : CompRes := { overs := lost, segs := segs.length, occ := ⟨lost, 0, 0⟩ }
  if c.nc = 0 then { r with writes := ss.map fun s => (0, c.outOff, s.close) }
  else { r with out := ((List.range c.nc).map fun i =>
    consOut i (c.cons.getD i (0, 0)) ((ss.getD i {}).close)).flatten }

def CDesc.run (c : CDesc) (d : VDesc) (v : View) (rows : List (List CVal)) : CompRes :=
  let n := rows.length
  let row := fun r => rows.getD r []
  let b := fmtBits d.compFmt
  if c.form = 0 then
    (List.range n).foldl (fun res r =>
      let o := c.nmRow d (row r)
      let base := c.outOff + r * c.outLen
      { res with
        writes := res.writes ++ [(0, base, packElems b o.slots), (0, base + c.escStart d, packElems b o.esc),
          (1, c.meta_ + r * c.mr d, packElems (fmtBits c.metaFmt) o.entries)]
        overs := res.overs + o.overs
        occ := res.occ.add ⟨o.overs, 0, 0⟩ }) {}
  else if c.form = 1 then
    c.streams ((List.range n).map fun r =>
      c.cut r b (((List.range d.d0).filter fun i => ((row r).getD i .zero).isNonzero).map fun i =>
        (i, ((row r).getD i .zero).code))).flatten
  else if c.form = 2 then
    { c.streams ((List.range n).map fun r => c.cut r 0 ((c.selected d v (row r)).map fun i => (i, 0))).flatten with
      ecc := c.guardEn && v.anyBad c.guardOff (ceilDiv d.d0 8) }
  else
    let l := c.list d v
    let named := fun r i => l.segs.any fun g => g.row = r && g.entries.any fun e => match e with
      | some e => e.idx = some i
      | none => false
    let count := fun (f : Nat → Nat → Bool) => (List.range n).foldl (fun k r =>
      k + ((List.range d.d0).filter fun i => ((row r).getD i .zero).isNonzero && f r i).length) 0
    let hits := count named
    let misses := count fun r i => !named r i
    { occ := l.occ, hits := hits, misses := misses, miss := (hits + misses) * c.missLimit < misses * 256,
      ecc := v.anyBad c.listOff l.bytes }

/-- The status word (Table 07.5). -/
def CompRes.status (r : CompRes) : Word :=
  BitVec.ofNat 32 (2 ^ 31 + (if r.occ.overs ≠ 0 then 2 ^ 30 else 0) + (if r.miss then 2 ^ 29 else 0)
    + min 4095 r.overs * 4096 + min 4095 r.segs)

end Sys2Proof.Machine
end

