-- ==== Sys2Proof/Machine/Vector.lean ====
section
/-! DEFINITION. The vector engine: checks, rows and beats, the reduction unit, fetch, issue, release and completion (R131
to R146, R158 to R167). A descriptor reads all its operands at one instant (log 16). -/

namespace Sys2Proof.Machine

/-! ## Checks (R141, Table 06.7) -/

def VDesc.ranges (d : VDesc) (p : Nat → Bool) : List (Nat × (Nat × Nat)) :=
  ((List.range 4).filter p).filterMap fun k => (d.range k).map fun r => (k, r)

/-- Code 1: reserved fields and values. -/
def VDesc.bad1 (d : VDesc) : Bool :=
  d.reserved || d.cf = 7 || (d.cslotEn && (d.cslot < 8 || d.cval = 2 || d.cval = 3))
    || (!d.compEn && d.compOff ≠ 0) || d.slots.any fun v => v.isScale && v.fmt ≠ 0

/-- Code 3: slot use. An uncorrectable program word rejects nothing (R145): a missing STORE counts only without one. -/
def VDesc.bad3 (d : VDesc) (ms : List MOp) (badProg : List Nat) : Bool :=
  (ms.any fun m => m.opc = 0x01 && !(d.slot m.s).isIn)
    || (ms.any fun m => m.opc = 0x02 && (!(d.slot m.s).isOut || d.isRout m.s))
    || ((List.range 4).any fun k =>
      let v := d.slot k
      let stores := (ms.filter fun m => m.opc = 0x02 && m.s = k).length
      (v.isOut && !d.isRout k && (1 < stores || (stores = 0 && badProg.isEmpty)))
        || (v.isOut && v.bcast)
        || (v.isScale && (match d.scaleOf k with | some (j, _) => (d.slot j).role = 0 | none => true))
        || ((v.isIn || v.isOut) && isBlock v.fmt
          && (!(d.slot (k + 1)).isScale || (v.fmt = 15 && !(d.slot (k + 2)).isScale))))
    || (d.routEn && !(d.slot d.rout).isOut)

/-- Code 4: formats. -/
def VDesc.bad4 (d : VDesc) : Bool :=
  (d.slots.any fun v => (v.isIn || v.isOut) && isBlock v.fmt && d.d0 % 32 ≠ 0)
    || (d.slots.any fun v => v.isOut && ((fmtBits v.fmt = 4 && d.d0 % 2 ≠ 0)
        || ((v.fmt = 11 || is6bit v.fmt) && d.d0 % 4 ≠ 0)))
    || (d.rint && d.w ≠ 32) || (d.routEn && (d.slot d.rout).fmt ≠ 0)

/-- Code 5: reduction. -/
def VDesc.bad5 (d : VDesc) : Bool :=
  let needs := fun c => 1 ≤ c && c ≤ 6
  (!d.redEn && (d.sumsel.any needs || d.routEn || (4 ≤ d.cval && needs (d.sumsel.getD (d.cval - 4) 0))))
    || (d.routEn && (d.recWords = 0 || (d.rec_.drop d.recWords).any (· ≠ 0) || d.dim d.rdim = 1))

/-- Code 7: overlap of a written range; only an output, not scales and not a record range, may equal an input slot. -/
def VDesc.bad7 (d : VDesc) (off : Nat) : Bool :=
  let meets := fun (a b : Nat × Nat) => overlaps a.1 a.2 b.1 b.2
  let outs := d.ranges d.written
  let same := fun i j =>
    let a := d.slot i
    let b := d.slot j
    a.isOut && !d.isRout i && b.isIn && a.off = b.off && a.s1 = b.s1 && a.s2 = b.s2 && a.s3 = b.s3 && a.bcast = b.bcast && a.fmt = b.fmt
  outs.any fun o => meets o.2 (off, off + 63) || meets o.2 (d.prog, d.prog + 4 * d.pl - 1)
    || (outs.any fun q => q.1 ≠ o.1 && meets o.2 q.2)
    || (d.ranges d.readSlot).any fun q => meets o.2 q.2 && !same o.1 q.1

/-- Code 8: alignment. Table 06.7 names no code for a PROG_OFF that is not a multiple of 4; the model takes this one (DESIGN
CHOICE, log 79). -/
def VDesc.bad8 (d : VDesc) : Bool :=
  d.prog % 4 ≠ 0 || d.slots.any fun v =>
    let n := if v.role = 0 || v.isScale then 1 else if is6bit v.fmt then 3
      else if 16 ≤ fmtBits v.fmt then fmtBits v.fmt / 8 else 1
    v.off % n ≠ 0 || v.s1 % n ≠ 0 || v.s2 % n ≠ 0 || v.s3 % n ≠ 0

/-- Code 9: output strides in use. -/
def VDesc.bad9 (d : VDesc) : Bool :=
  (List.range 4).any fun k => d.written k &&
    let v := d.slot k
    let use := fun j => 1 < d.dim j && !(d.isRout k && d.rdim = j)
    let b1 := d.rowBytes k
    let b2 := b1 + if use 1 then (d.d1 - 1) * v.s1 else 0
    let b3 := b2 + if use 2 then (d.d2 - 1) * v.s2 else 0
    (use 1 && v.s1 < b1) || (use 2 && v.s2 < b2) || (use 3 && v.s3 < b3)

/-- Codes 1 to 10 of Table 06.7 in order; 0 where none applies. -/
def VDesc.check (d : VDesc) (off : Nat) (prog : List Word) (badProg : List Nat) : Nat :=
  let ms := program prog badProg
  if d.bad1 then 1
  else if ms.any (·.bad d.w) then 2
  else if d.bad3 ms badProg then 3
  else if d.bad4 then 4
  else if d.bad5 then 5
  else if 0xFFFF < off + 63 || 0xFFFF < d.prog + 4 * d.pl - 1 || (d.ranges fun _ => true).any (fun r => 0xFFFF < r.2.2) then 6
  else if d.bad7 off then 7
  else if d.bad8 then 8
  else if d.bad9 then 9
  else if d.compEn && (d.compOff % 32 ≠ 0 || d.compSlot.isNone) then 10
  else 0

/-! ## Rows -/

/-- What an output slot writes in a row: its bytes, scales, sub-scales, the flags of each block, and its values. -/
structure SlotRow where
  bytes : List Byte := []
  scales : List Byte := []
  subs : List Byte := []
  blockFlags : List AFlags := []
  vals : List CVal := []
  deriving DecidableEq, Repr

/-- The row of slot `k` from its stored values, one per element. -/
def VDesc.slotRow (d : VDesc) (k : Nat) (cs : List Nat) : SlotRow :=
  let f := (d.slot k).fmt
  if isBlock f then
    let bs := (chunks 32 cs).map fun ws => quantBlock f ws
    let codes := (bs.map (·.codes)).flatten
    { bytes := packElems (fmtBits f) codes, scales := bs.map fun b => BitVec.ofNat 8 b.scale,
      subs := (bs.map fun b => b.subs.map (BitVec.ofNat 8 ·)).flatten, blockFlags := bs.map (·.flags),
      vals := (List.range cs.length).map fun i =>
        let b := bs.getD (i / 32) ⟨[], 0, [], 0⟩
        let c := codes.getD i 0
        let sub := if f = 15 then decodeF (ffmt 4) (b.subs.getD (i % 32 / 8) 0) else noSub
        ⟨num32 (toBinary32 f c (decodeScale b.scale) sub).1, c⟩ }
  else
    { bytes := packElems (fmtBits f) cs, vals := cs.map fun c => ⟨(decode f c).1, c⟩ }

/-- A row: its indexes, its lanes, and what each output slot writes. -/
structure VRow where
  i1 : Nat
  i2 : Nat
  i3 : Nat
  lanes : List Lane
  outs : List (Nat × SlotRow)
  deriving DecidableEq, Repr

def VDesc.row (d : VDesc) (v : View) (ms : List MOp) (i1 i2 i3 : Nat) : VRow :=
  let ls := (List.range d.d0).map fun i0 => d.runElem v ms i0 i1 i2 i3
  let outs := ((List.range 4).filter fun k => (d.slot k).isOut && !d.isRout k).filterMap fun k =>
    if ls.all fun l => l.outs.any (·.1 = k) then
      some (k, d.slotRow k (ls.map fun l => ((l.outs.find? (·.1 = k)).map (·.2)).getD 0))
    else none
  ⟨i1, i2, i3, ls, outs⟩

/-- All rows, d1 fastest (R132). -/
def VDesc.vrows (d : VDesc) (v : View) (ms : List MOp) : List VRow :=
  ((List.range d.d3).map fun i3 => ((List.range d.d2).map fun i2 => (List.range d.d1).map fun i1 =>
    d.row v ms i1 i2 i3).flatten).flatten

/-- The writes of a row, by slot (R134, R136). -/
def VDesc.rowWrites (d : VDesc) (r : VRow) : List (Nat × Nat × List Byte) :=
  (r.outs.map fun o =>
    let at_ := fun k => (d.slot k).at_ r.i1 r.i2 r.i3
    (o.1, at_ o.1, o.2.bytes)
      :: (if o.2.scales.isEmpty then [] else [(o.1 + 1, at_ (o.1 + 1), o.2.scales)])
      ++ (if o.2.subs.isEmpty then [] else [(o.1 + 2, at_ (o.1 + 2), o.2.subs)])).flatten

/-! ## The reduction unit (R138, R139) -/

/-- The quantities of one record position, or the totals: sums, extremes with the index of the largest, the count. -/
structure Racc where
  sum : Option Nat := none
  sum2 : Option Nat := none
  isum : Int := 0
  isum2 : Int := 0
  hi : Option (Nat × Nat) := none
  lo : Option Nat := none
  count : Nat := 0
  fl : AFlags := 0
  deriving DecidableEq, Repr

/-- Add neighbours. -/
def pairUp : List Nat → List Nat × AFlags
  | a :: b :: l =>
    let s := add32 4 [] a b
    let t := pairUp l
    (s.1 :: t.1, s.2 ||| t.2)
  | l => (l, 0)

/-- The pairwise tree of a beat, in lane order. -/
def treeSum : Nat → List Nat → Nat × AFlags
  | 0, l => (l.headD 0, 0)
  | n + 1, l =>
    if l.length ≤ 1 then (l.headD 0, 0)
    else
      let p := pairUp l
      let r := treeSum n p.1
      (r.1, p.2 ||| r.2)

/-- Add a beat's sum to a sum so far. -/
def sumInto (acc : Option Nat) (b : Nat × AFlags) : Option Nat × AFlags :=
  match acc with
  | none => (some b.1, b.2)
  | some a =>
    let r := add32 4 [] a b.1
    (some r.1, r.2 ||| b.2)

/-- Does `b` take the place of `a` as the largest (or the smallest) value, by R99? -/
def beats (int isMax : Bool) (a b : Nat) : Bool :=
  if int then (if isMax then int32 a < int32 b else int32 b < int32 a)
  else
    let x := num32 a
    let y := num32 b
    if y.isNan then false else if x.isNan then true else if isMax then numLt x y else numLt y x

/-- One element's RSRC, with its index, among the extremes and the count. -/
def Racc.one (int : Bool) (r : Racc) (x idx : Nat) : Racc :=
  { r with
    hi := match r.hi with | some (a, i) => if beats int true a x then some (x, idx) else some (a, i) | none => some (x, idx)
    lo := match r.lo with | some a => if beats int false a x then some x else some a | none => some x
    count := r.count + if (if int then x = 0 else (num32 x).isZero) then 0 else 1 }

/-- The elements of one beat: values of RSRC and RSRC2 in lane order, the index of each. -/
def Racc.beat (int : Bool) (r : Racc) (xs ys is : List Nat) : Racc :=
  let r := (xs.zip is).foldl (fun r e => r.one int e.1 e.2) r
  if int then
    { r with isum := xs.foldl (fun n x => n + int32 x) r.isum, isum2 := ys.foldl (fun n y => n + int32 y) r.isum2 }
  else
    let a := sumInto r.sum (treeSum 7 xs)
    let b := sumInto r.sum2 (treeSum 7 ys)
    let nan := if (xs ++ ys).any fun x => (num32 x).isNan then fNV else 0
    { r with sum := a.1, sum2 := b.1, fl := r.fl ||| a.2 ||| b.2 ||| nan }

/-- The flags that arise when the quantities complete: saturation of an int32 sum, an all-NaN extreme. -/
def Racc.closeFlags (int : Bool) (r : Racc) : AFlags :=
  if int then (sat32 r.isum).2 ||| (sat32 r.isum2).2
  else match r.hi with
    | some (x, _) => if (num32 x).isNan then fNV else 0
    | none => 0

/-- The value of a reduction code (Table 06.5); `fl` are the descriptor's flags so far. -/
def Racc.value (int : Bool) (r : Racc) (fl : AFlags) (code : Nat) : Word :=
  BitVec.ofNat 32 (match code with
    | 1 => if int then (sat32 r.isum).1 else r.sum.getD 0
    | 2 => if int then (sat32 r.isum2).1 else r.sum2.getD 0
    | 3 => (r.hi.map (·.1)).getD 0
    | 4 => r.lo.getD 0
    | 5 => match r.hi with
      | some (x, i) => if !int && (num32 x).isNan then 0 else i
      | none => 0
    | 6 => r.count
    | 7 => fl.toNat
    | _ => 0)

/-! ## A run of the descriptor -/

/-- How far a run has come: flags, totals, records by address, writes by slot. -/
structure VRun where
  fl : AFlags := 0
  total : Racc := {}
  recs : Tab Racc := []
  writes : List (Nat × Nat × List Byte) := []
  deriving DecidableEq, Repr

/-- Where the record of an element lies (R139). -/
def VDesc.recAt (d : VDesc) (i0 i1 i2 i3 : Nat) : Nat :=
  let v := d.slot d.rout
  let use := fun j i s => if d.rdim = j then 0 else i * s
  v.off + use 1 i1 v.s1 + use 2 i2 v.s2 + use 3 i3 v.s3 + use 0 i0 (4 * d.recWords)

/-- A key that tells record positions apart. -/
def VDesc.recKey (d : VDesc) (i0 i1 i2 i3 : Nat) : Nat :=
  let u := fun j i => if d.rdim = j then 0 else i
  u 0 i0 + 4096 * (u 1 i1 + 4096 * (u 2 i2 + 256 * u 3 i3))

/-- One beat of a row: `from_` is its first element. -/
def VDesc.runBeat (d : VDesc) (r : VRow) (st : VRun) (from_ : Nat) : VRun :=
  let is := (List.range (min d.lanes (d.d0 - from_))).map (from_ + ·)
  let lane := fun i => r.lanes.getD i {}
  let fl := is.foldl (fun f i => f ||| (lane i).fl) st.fl
  let fl := r.outs.foldl (fun f o => (List.range o.2.blockFlags.length).foldl (fun f b =>
    if from_ < 32 * (b + 1) && 32 * (b + 1) ≤ from_ + is.length then f ||| o.2.blockFlags.getD b 0 else f) f) fl
  if !d.redEn then { st with fl := fl }
  else
    let val := fun t i =>
      let c := (lane i).ts.getD t 0
      if d.rint then c else cfTo32 d.f c
    let xs := is.map (val d.rsrc)
    let ys := is.map (val d.rsrc2)
    let lin := fun i => i + d.d0 * (r.i1 + d.d1 * (r.i2 + d.d2 * r.i3))
    let total := st.total.beat d.rint xs ys (is.map lin)
    let along := if d.rdim = 1 then r.i1 else if d.rdim = 2 then r.i2 else r.i3
    let recs :=
      if d.rdim = 0 then
        let k := d.recKey 0 r.i1 r.i2 r.i3
        tPut st.recs k ((tGet {} st.recs k).beat d.rint xs ys is)
      else is.foldl (fun m i =>
        let k := d.recKey i r.i1 r.i2 r.i3
        tPut m k ((tGet {} m k).beat d.rint [val d.rsrc i] [val d.rsrc2 i] [along])) st.recs
    let done :=
      if d.rdim = 0 then (if from_ + is.length = d.d0 then [0] else [])
      else if along + 1 = d.dim d.rdim then is else []
    let fl := is.foldl (fun f i => f ||| (tGet {} recs (d.recKey i r.i1 r.i2 r.i3)).fl) (fl ||| total.fl)
    let fl := done.foldl (fun f i => f ||| (tGet {} recs (d.recKey i r.i1 r.i2 r.i3)).closeFlags d.rint) fl
    let ws := if d.routEn then done.map fun i =>
        let a := tGet {} recs (d.recKey i r.i1 r.i2 r.i3)
        (d.rout, d.recAt i r.i1 r.i2 r.i3,
          ((d.rec_.take d.recWords).map fun c => leBytes 4 (a.value d.rint fl c).toNat).flatten)
      else []
    { st with fl := fl, total := total, recs := recs, writes := st.writes ++ ws }

def VDesc.runRow (d : VDesc) (st : VRun) (r : VRow) : VRun :=
  let st := (List.range (ceilDiv d.d0 d.lanes)).foldl (fun st b => d.runBeat r st (b * d.lanes)) st
  { st with writes := st.writes ++ d.rowWrites r }

/-- The run of all rows, with the totals closed. -/
def VDesc.run (d : VDesc) (rows : List VRow) : VRun :=
  let st := rows.foldl d.runRow {}
  if d.redEn then { st with fl := st.fl ||| st.total.closeFlags d.rint } else st

/-- The four summaries (R140). -/
def VDesc.summaries (d : VDesc) (st : VRun) : List Word := d.sumsel.map (st.total.value d.rint st.fl)

/-- The values that pass to the compressor, by row (R146); zeros where the slot is not written. -/
def VDesc.compRows (d : VDesc) (rows : List VRow) : List (List CVal) :=
  rows.map fun r => match r.outs.find? fun o => some o.1 = d.compSlot with
    | some o => o.2.vals
    | none => List.replicate d.d0 .zero

/-- The runs the engine reads: input slots, their scales, the compressor's local inputs. -/
def VDesc.readRuns (d : VDesc) : List (Nat × Nat) :=
  (((List.range 4).filter d.readSlot).map fun k =>
    ((List.range d.d3).map fun i3 => ((List.range d.d2).map fun i2 => (List.range d.d1).map fun i1 =>
      ((d.slot k).at_ i1 i2 i3, d.rowBytes k)).flatten).flatten).flatten

/-- The runs in the order in which input 1 reads them: row by row, slots ascending, then the compressor's inputs (DESIGN
CHOICE for the order within a row, log 80). -/
def VDesc.streamRuns (d : VDesc) : List (Nat × Nat) :=
  ((List.range d.d3).map fun i3 => ((List.range d.d2).map fun i2 => ((List.range d.d1).map fun i1 =>
    ((List.range 4).filter d.readSlot).map fun k => ((d.slot k).at_ i1 i2 i3, d.rowBytes k)).flatten).flatten).flatten

/-! ## The phases (R140, R142, R144, R145) -/

/-- Head of the vector queue. -/
def State.vecHead (s : State) (t : Nat) (f : Desc → Desc) : State :=
  s.modTile t (·.modEng fun e => { e with vec := setHead e.vec f })

def VDesc.token (d : VDesc) (e : Desc) (word : Word) (sums : List Word) : Option Token :=
  if d.cslotEn then
    some ⟨d.cslot, e.tag, if d.cval = 0 then BitVec.ofNat 32 e.off else if d.cval = 1 then word
      else sums.getD (d.cval - 4) 0, none⟩
  else none

/-- The engine rejects the descriptor. A token whose value would be a summary carries a free one: the spec gives a
rejected descriptor no summary. -/
def State.rejectVec (s : State) (t : Nat) (d : VDesc) (e : Desc) (code : Nat) (ecc : Bool) : State :=
  let f := s.freeWord
  let s := if d.cslotEn && 2 ≤ d.cval then f.2 else s
  s.rejectDesc t false e (e.off + 60) code ecc
    (d.token e (complWord ecc true false code 0) (List.replicate 4 f.1))

/-- The engine fetches and checks the first queued descriptor, its program and its compressor's descriptor; the gate holds
beats only (R144). Where a consumer entry holds the completion word its write waits (R182). -/
def execVectorFetch (t : Nat) (s : State) : Out :=
  onTile t s fun s =>
    let x := s.tile t
    match x.eng.vec with
    | [] => .next s
    | e :: _ =>
      if e.phase ≠ .queued || x.pad.consumerHit (e.off + 60) (e.off + 63) then .next s
      else
        let p := x.pad
        let words := fun a n => (List.range n).map fun i => p.word (a + 4 * i)
        let ws := words e.off 15
        let d := vdesc ws
        let s := (s.readEffects t e.off 60).modTile t (·.modPad (·.setStream 1 (rowsOf e.off 60 ++ rowsOf d.prog (4 * d.pl))))
        if p.bad e.off 60 then .next ((s.padWrite t (e.off + 60) [0, 0, 0, 0]).rejectVec t d e 12 true)
        else
          let prog := words d.prog d.pl
          let badProg := (List.range d.pl).filter fun i => p.bad (d.prog + 4 * i) 4
          let s := (s.readEffects t d.prog (4 * d.pl)).padWrite t (e.off + 60) [0, 0, 0, 0]
          let code := d.check e.off prog badProg
          if code ≠ 0 then .next (s.rejectVec t d e code (!badProg.isEmpty))
          else
            let n := cdescWords (bitsW (p.word d.compOff) 8 4)
            let comp := if d.compEn then words d.compOff n else []
            let s := if d.compEn then s.readEffects t d.compOff (4 * n) else s
            if d.compEn && p.bad d.compOff (4 * n) then .next (s.rejectVec t d e 12 true)
            else if d.compEn && (cdesc comp).bad comp d e.off (padView p) then
              .next (s.rejectVec t d e 11 (!badProg.isEmpty))
            else .next (s.vecHead t fun e =>
              { e with phase := .fetched, words := ws, prog := prog, comp := comp, badProg := badProg,
                       ecc := !badProg.isEmpty })

/-- Local regions of the descriptor's compressor. -/
def Desc.compOuts (e : Desc) (d : VDesc) : List (Nat × Nat) := if d.compEn then (cdesc e.comp).outRegions d else []
def Desc.compIns (e : Desc) (d : VDesc) (v : View) : List (Nat × Nat) :=
  if d.compEn then (cdesc e.comp).inRegions d v else []

/-- Enter ranges as incomplete writes, or as consumer ranges. -/
def Pad.enterAll (p : Pad) (now : Nat) (consumer : Bool) (rs : List (Nat × Nat)) : Pad × List Nat :=
  rs.foldl (fun a r =>
    let b := a.1.enterKey now ⟨consumer, 1, r.1, r.2, 0⟩
    (b.1, a.2 ++ b.2)) (p, [])

/-- The issue check and the entries of the output, record and local output ranges and of the CONS inputs (R142, R164). -/
def execVectorIssue (t : Nat) (s : State) : Out :=
  onTile t s fun s =>
    let x := s.tile t
    match x.eng.vec with
    | [] => .next s
    | e :: _ =>
      let d := vdesc e.words
      let p := x.pad.issueView s.now
      let ins := d.ranges d.readSlot
      let outs := d.ranges d.written
      let cons := ins.filter fun r => (d.slot r.1).isIn && (d.slot r.1).cons
      let regions := (e.compOuts d).map fun r => (r.1, r.1 + (r.2 - 1))
      if e.phase ≠ .fetched || x.eng.gate = 0 || ins.any (fun r => p.writePending r.2.1 r.2.2)
          || p.blocked [(d.prog, 4 * d.pl)] || p.blocked (e.compIns d (padView p))
          || p.freeEntries < outs.length + regions.length + cons.length then .next s
      else
        let po := x.pad.enterAll s.now false (outs.map (·.2) ++ regions)
        let pc := po.1.enterAll s.now true (cons.map (·.2))
        let rows := runRows (d.streamRuns ++ e.compIns d (padView p))
        .next ((s.modTile t (·.modPad fun _ => pc.1.setStream 1 rows)).vecHead t fun e =>
          { e with phase := .issued, entries := po.2, cons := pc.2.zip (cons.map (·.1)) })

/-- The entry a write belongs to: output slots ascending, then the compressor's regions. -/
def Desc.entryOf (e : Desc) (d : VDesc) (slot : Nat) : Nat :=
  let outs := (d.ranges d.written).map (·.1)
  e.entries.getD (if slot < 4 then (outs.findIdx (· = slot)) else outs.length + (slot - 4)) 0

/-- The elements pass the lanes and the compressor: results wait to land, PUTs and SIGNALs go to the issue buffer, the
tile's accounts of reads and SPARSE_ occurrences are made. Does nothing once done. -/
def State.runVec (s : State) (t : Nat) : State :=
  let x := s.tile t
  match x.eng.vec with
  | [] => s
  | e :: _ =>
    if e.phase ≠ .issued then s
    else
      let d := vdesc e.words
      let v := padView x.pad
      let rows := d.vrows v (program e.prog e.badProg)
      let r := d.run rows
      let c := cdesc e.comp
      let cr := if d.compEn then c.run d v (d.compRows rows) else {}
      let runs := d.readRuns ++ e.compIns d v
      let ecc := e.ecc || cr.ecc || runs.any fun q => x.pad.bad q.1 q.2
      let words := if !d.compEn then [] else
        (if c.form = 3 then [(99, d.compOff + 20, leBytes 4 cr.hits ++ leBytes 4 cr.misses)] else [])
          ++ [(99, d.compOff + 28, leBytes 4 cr.status.toNat)]
      let ws := (r.writes.map fun w => (e.entryOf d w.1, w.2)) ++ (cr.writes.map fun w => (e.entryOf d (w.1 + 4), w.2))
        ++ words
      let s := (s.readRunsEffects t runs).sparseEvents t e.off cr.occ
      let s := s.modTile t fun x => (x.count cSpyHits cr.hits).count cSpyMisses cr.misses
      let s := if cr.miss then s.tileEvent t 0x0204 cr.misses else s
      (s.vecHead t fun e => { e with phase := .latched, ecc := ecc, writes := ws, sums := d.summaries r, flags := r.fl,
                                     spx := cr.occ.any, out := cr.out }).pump t

/-- Does a consumer entry of another descriptor meet the range? -/
def Pad.foreignHit (p : Pad) (own : List Nat) (lo n : Nat) : Bool :=
  p.sb.any fun k => k.2.consumer && !own.contains k.1 && n ≠ 0 && overlaps lo (lo + (n - 1)) k.2.lo k.2.hi

def Desc.heldBy (e : Desc) (p : Pad) (ws : List (Nat × Nat × List Byte)) : Bool :=
  ws.any fun w => p.foreignHit (e.cons.map (·.1)) w.2.1 w.2.2.length

/-- Land writes in order. -/
def State.land (s : State) (t : Nat) (ws : List (Nat × Nat × List Byte)) : State :=
  ws.foldl (fun s w => s.padWrite t w.2.1 w.2.2) s

/-- Remove scoreboard entries, and perform the network writes they held. -/
def State.dropEntries (s : State) (t : Nat) (ks : List Nat) : State :=
  (s.modTile t (·.modPad (·.dropAll s.now ks))).freeWrites t

/-- The writes that have landed when those of entry `id` have: the engine's writeback is in order, so those before the
last of them too, and a held one stalls the rest (R182). -/
def Desc.upTo (e : Desc) (id : Nat) : List (Nat × Nat × List Byte) :=
  e.writes.take ((e.writes.reverse.dropWhile (·.1 ≠ id)).length)

/-- The last read of a CONS slot, or the last write of an output range: that scoreboard entry is released. -/
def execVectorConsumerRelease (t id : Nat) (s : State) : Out :=
  onTile t s fun s =>
    if (s.tile t).eng.gate = 0 then .next s
    else
      let s := s.runVec t
      let x := s.tile t
      match x.eng.vec with
      | [] => .next s
      | e :: _ =>
        if e.phase ≠ .latched then .next s
        else if e.cons.any (·.1 = id) then
          .next ((s.vecHead t fun e => { e with cons := e.cons.filter (·.1 ≠ id) }).dropEntries t [id])
        else if e.entries.contains id then
          let ws := e.upTo id
          if e.heldBy x.pad ws then .next s
          else .next (((s.land t ws).vecHead t fun e =>
            { e with entries := e.entries.filter (· ≠ id), writes := e.writes.drop ws.length }).dropEntries t [id])
        else .next s

/-- SM0 to SM3, SMTAG and SMFLG at completion (R39). -/
def Seq.setSums (q : Seq) (e : Desc) : Seq := { q with sm := e.sums, smTag := e.tag, smFlg := e.flags }

/-- The descriptor and its compressor finish: the remaining results land, entries are released, summaries, completion word
and token are delivered. It waits for the answers of the compressor's operations and for consumer entries of others. -/
def execVectorComplete (t : Nat) (s : State) : Out :=
  onTile t s fun s =>
    if (s.tile t).eng.gate = 0 then .next s
    else
      let s := s.runVec t
      let x := s.tile t
      match x.eng.vec with
      | [] => .next s
      | e :: _ =>
        if e.phase ≠ .latched || !e.out.isEmpty || e.rops ≠ 0
            || e.heldBy x.pad (e.writes ++ [(0, e.off + 60, [0, 0, 0, 0])]) then .next s
        else
          let d := vdesc e.words
          let w := complWord e.ecc false e.spx 0 e.flags
          let s := (s.land t e.writes).modTile t fun x =>
            (x.modPad fun p => (p.dropAll s.now (e.entries ++ e.cons.map (·.1))).setStream 1 []).modSeq fun q =>
              if d.sumEn then q.setSums e else q
          let s := s.padWrite t (e.off + 60) (leBytes 4 w.toNat)
          .next ((s.finishDesc t false e (d.token e w e.sums)).freeWrites t)

end Sys2Proof.Machine
end

