-- ==== Sys2Proof/Machine/Dispatch.lean ====
section
/-! DEFINITION. The meaning of a command, one arm for each row of spec/opcode_table.json. -/

namespace Sys2Proof.Machine

def exec (i : Instr) (s : State) : Host.Outcome State Fault Refusal :=
  match i with
  | .alu t f => Sys2Proof.Machine.execAlu t f s
  | .addi t f => Sys2Proof.Machine.execAddi t f s
  | .andi t f => Sys2Proof.Machine.execAndi t f s
  | .ori t f => Sys2Proof.Machine.execOri t f s
  | .xori t f => Sys2Proof.Machine.execXori t f s
  | .shi t f => Sys2Proof.Machine.execShi t f s
  | .cmp t f => Sys2Proof.Machine.execCmp t f s
  | .cmpi t f => Sys2Proof.Machine.execCmpi t f s
  | .lui t f => Sys2Proof.Machine.execLui t f s
  | .ld t f => Sys2Proof.Machine.execLd t f s
  | .st t f => Sys2Proof.Machine.execSt t f s
  | .bcc t f => Sys2Proof.Machine.execBcc t f s
  | .jal t f => Sys2Proof.Machine.execJal t f s
  | .jalr t f => Sys2Proof.Machine.execJalr t f s
  | .mfs t f => Sys2Proof.Machine.execMfs t f s
  | .mts t f => Sys2Proof.Machine.execMts t f s
  | .selc t f => Sys2Proof.Machine.execSelc t f s
  | .edesc t f => Sys2Proof.Machine.execEdesc t f s
  | .waite t f => Sys2Proof.Machine.execWaite t f s
  | .waitw t f => Sys2Proof.Machine.execWaitw t f s
  | .waitwPoll t => Sys2Proof.Machine.execWaitwPoll t s
  | .emit t f => Sys2Proof.Machine.execEmit t f s
  | .doneHandler t f => Sys2Proof.Machine.execDoneHandler t f s
  | .trapSoft t f => Sys2Proof.Machine.execTrapSoft t f s
  | .rtt t f => Sys2Proof.Machine.execRtt t f s
  | .halt t f => Sys2Proof.Machine.execHalt t f s
  | .cNop t h => Sys2Proof.Machine.execCNop t h s
  | .rmoPut t x => Sys2Proof.Machine.execRmoPut t x s
  | .rmoGet t x => Sys2Proof.Machine.execRmoGet t x s
  | .rmoAtomic t x => Sys2Proof.Machine.execRmoAtomic t x s
  | .rmoSignal t x => Sys2Proof.Machine.execRmoSignal t x s
  | .rmoSend t x => Sys2Proof.Machine.execRmoSend t x s
  | .fence t f => Sys2Proof.Machine.execFence t f s
  | .flowReset t x => Sys2Proof.Machine.execFlowReset t x s
  | .rmoPutReduce t x => Sys2Proof.Machine.execRmoPutReduce t x s
  | .stallRelease t => Sys2Proof.Machine.execStallRelease t s
  | .atomicResult t => Sys2Proof.Machine.execAtomicResult t s
  | .trapEntry t => Sys2Proof.Machine.execTrapEntry t s
  | .seqWatchdog t => Sys2Proof.Machine.execSeqWatchdog t s
  | .start t => Sys2Proof.Machine.execStart t s
  | .stop t => Sys2Proof.Machine.execStop t s
  | .tileTimerLoRead t => Sys2Proof.Machine.execTileTimerLoRead t s
  | .registerWrite r v => Sys2Proof.Machine.execRegisterWrite r v s
  | .matchToken t src => Sys2Proof.Machine.execMatchToken t src s
  | .actionFire t => Sys2Proof.Machine.execActionFire t s
  | .entryRetire t e => Sys2Proof.Machine.execEntryRetire t e s
  | .steerToken t src => Sys2Proof.Machine.execSteerToken t src s
  | .steerTimeout t k => Sys2Proof.Machine.execSteerTimeout t k s
  | .completionTokenEnter t => Sys2Proof.Machine.execCompletionTokenEnter t s
  | .courseChange c => Sys2Proof.Machine.execCourseChange c s
  | .courseCommand t => Sys2Proof.Machine.execCourseCommand t s
  | .drainReport t => Sys2Proof.Machine.execDrainReport t s
  | .drainEnd n => Sys2Proof.Machine.execDrainEnd n s
  | .drainWindowExpiry n => Sys2Proof.Machine.execDrainWindowExpiry n s
  | .matrixFetch t => Sys2Proof.Machine.execMatrixFetch t s
  | .matrixIssue t => Sys2Proof.Machine.execMatrixIssue t s
  | .matrixBLatched t => Sys2Proof.Machine.execMatrixBLatched t s
  | .matrixComplete t => Sys2Proof.Machine.execMatrixComplete t s
  | .gateValueCommand t l => Sys2Proof.Machine.execGateValueCommand t l s
  | .gateWindow t => Sys2Proof.Machine.execGateWindow t s
  | .vectorFetch t => Sys2Proof.Machine.execVectorFetch t s
  | .vectorIssue t => Sys2Proof.Machine.execVectorIssue t s
  | .vectorComplete t => Sys2Proof.Machine.execVectorComplete t s
  | .bankPowerDown t banks => Sys2Proof.Machine.execBankPowerDown t banks s
  | .bankPowerUp t banks => Sys2Proof.Machine.execBankPowerUp t banks s
  | .bankClearDone t => Sys2Proof.Machine.execBankClearDone t s
  | .bankPowerRetry n => Sys2Proof.Machine.execBankPowerRetry n s
  | .routerForward t port vc => Sys2Proof.Machine.execRouterForward t port vc s
  | .routerArbitration t port withdrawn => Sys2Proof.Machine.execRouterArbitration t port withdrawn s
  | .combineSlotTimeout t port => Sys2Proof.Machine.execCombineSlotTimeout t port s
  | .linkRetry t d => Sys2Proof.Machine.execLinkRetry t d s
  | .idleCheck t d ok => Sys2Proof.Machine.execIdleCheck t d ok s
  | .routerConfigWrite t c => Sys2Proof.Machine.execRouterConfigWrite t c s
  | .routeChange marks tables => Sys2Proof.Machine.execRouteChange marks tables s
  | .routeTablesAcked => Sys2Proof.Machine.execRouteTablesAcked s
  | .putArrive at_ p => Sys2Proof.Machine.execPutArrive at_ p s
  | .getArrive at_ p => Sys2Proof.Machine.execGetArrive at_ p s
  | .atomicArrive at_ p => Sys2Proof.Machine.execAtomicArrive at_ p s
  | .signalArrive at_ p => Sys2Proof.Machine.execSignalArrive at_ p s
  | .sendArrive t p => Sys2Proof.Machine.execSendArrive t p s
  | .creditReqArrive t p => Sys2Proof.Machine.execCreditReqArrive t p s
  | .creditRetArrive t p => Sys2Proof.Machine.execCreditRetArrive t p s
  | .creditGrantArrive t p => Sys2Proof.Machine.execCreditGrantArrive t p s
  | .creditRetry t opid => Sys2Proof.Machine.execCreditRetry t opid s
  | .creditIdleReturn t k => Sys2Proof.Machine.execCreditIdleReturn t k s
  | .putReduceArrive t p => Sys2Proof.Machine.execPutReduceArrive t p s
  | .answerArrive t p => Sys2Proof.Machine.execAnswerArrive t p s
  | .responseTimeout t opid => Sys2Proof.Machine.execResponseTimeout t opid s
  | .qfullTimeout t opid => Sys2Proof.Machine.execQfullTimeout t opid s
  | .spanFirstStart n => Sys2Proof.Machine.execSpanFirstStart n s
  | .spanResetCommand t => Sys2Proof.Machine.execSpanResetCommand t s
  | .spanResetReport t => Sys2Proof.Machine.execSpanResetReport t s
  | .spanFault n why => Sys2Proof.Machine.execSpanFault n why s
  | .spanWatchdogBoundary n => Sys2Proof.Machine.execSpanWatchdogBoundary n s
  | .spanWatchdogExpiry n => Sys2Proof.Machine.execSpanWatchdogExpiry n s
  | .spanRestart n => Sys2Proof.Machine.execSpanRestart n s
  | .hostSpanReset v => Sys2Proof.Machine.execHostSpanReset v s
  | .hostSpanRestart v => Sys2Proof.Machine.execHostSpanRestart v s
  | .hostSpanStart v => Sys2Proof.Machine.execHostSpanStart v s
  | .inputValid slot feed => Sys2Proof.Machine.execInputValid slot feed s
  | .mgmtRailsTimeout => Sys2Proof.Machine.execMgmtRailsTimeout s
  | .romEntry => Sys2Proof.Machine.execRomEntry s
  | .imageVerify k => Sys2Proof.Machine.execImageVerify k s
  | .flashReadTimeout k sfdp => Sys2Proof.Machine.execFlashReadTimeout k sfdp s
  | .electionClose => Sys2Proof.Machine.execElectionClose s
  | .imageAbandon k => Sys2Proof.Machine.execImageAbandon k s
  | .recoveryTimeout => Sys2Proof.Machine.execRecoveryTimeout s
  | .rootElection counts => Sys2Proof.Machine.execRootElection counts s
  | .rootQualifyTimeout => Sys2Proof.Machine.execRootQualifyTimeout s
  | .fieldRailOn f => Sys2Proof.Machine.execFieldRailOn f s
  | .fieldQualify f clk => Sys2Proof.Machine.execFieldQualify f clk s
  | .fieldQualifyTimeout f => Sys2Proof.Machine.execFieldQualifyTimeout f s
  | .selfTestReport t logicOk banksOk => Sys2Proof.Machine.execSelfTestReport t logicOk banksOk s
  | .selfTestTimeout f => Sys2Proof.Machine.execSelfTestTimeout f s
  | .linkMeasureStart => Sys2Proof.Machine.execLinkMeasureStart s
  | .linkWindowEnd errs overfull routes => Sys2Proof.Machine.execLinkWindowEnd errs overfull routes s
  | .bisqueEnd => Sys2Proof.Machine.execBisqueEnd s
  | .mapTimeout => Sys2Proof.Machine.execMapTimeout s
  | .glostOpen t n d => Sys2Proof.Machine.execGlostOpen t n d s
  | .glostDigests t first digests => Sys2Proof.Machine.execGlostDigests t first digests s
  | .glostPart t seg part bytes => Sys2Proof.Machine.execGlostPart t seg part bytes s
  | .glostClose t => Sys2Proof.Machine.execGlostClose t s
  | .glostPull t seg => Sys2Proof.Machine.execGlostPull t seg s
  | .pullRequest t seg => Sys2Proof.Machine.execPullRequest t seg s
  | .glostReport t => Sys2Proof.Machine.execGlostReport t s
  | .glostTimeout => Sys2Proof.Machine.execGlostTimeout s
  | .pcieLinkUp h rate width => Sys2Proof.Machine.execPcieLinkUp h rate width s
  | .viaductTrainingDone p => Sys2Proof.Machine.execViaductTrainingDone p s
  | .qualifyWindowEnd p lanes => Sys2Proof.Machine.execQualifyWindowEnd p lanes s
  | .trainingTimeout p => Sys2Proof.Machine.execTrainingTimeout p s
  | .keystoneWatchdog => Sys2Proof.Machine.execKeystoneWatchdog s
  | .keystoneResetTimeout => Sys2Proof.Machine.execKeystoneResetTimeout s
  | .rcvGo k h v => Sys2Proof.Machine.execRcvGo k h v s
  | .rcvAbort k v => Sys2Proof.Machine.execRcvAbort k v s
  | .rcvCheckDone k img => Sys2Proof.Machine.execRcvCheckDone k img s
  | .rcvEraseDone k ok => Sys2Proof.Machine.execRcvEraseDone k ok s
  | .rcvProgramDone k img ok => Sys2Proof.Machine.execRcvProgramDone k img ok s
  | .rcvReadbackDone k ownOk otherOk => Sys2Proof.Machine.execRcvReadbackDone k ownOk otherOk s
  | .kilnTick => Sys2Proof.Machine.execKilnTick s
  | .telemetryReport sensor mv ma temp => Sys2Proof.Machine.execTelemetryReport sensor mv ma temp s
  | .telemetryTimeout sensor => Sys2Proof.Machine.execTelemetryTimeout sensor s
  | .klnCapWrite v => Sys2Proof.Machine.execKlnCapWrite v s
  | .fstepChange => Sys2Proof.Machine.execFstepChange s
  | .droop f => Sys2Proof.Machine.execDroop f s
  | .stretchEnd f low => Sys2Proof.Machine.execStretchEnd f low s
  | .coolantLoss b => Sys2Proof.Machine.execCoolantLoss b s
  | .regulatorTrip g => Sys2Proof.Machine.execRegulatorTrip g s
  | .feedGroupLoss b => Sys2Proof.Machine.execFeedGroupLoss b s
  | .deepOffEntry v => Sys2Proof.Machine.execDeepOffEntry v s
  | .wake slot feed => Sys2Proof.Machine.execWake slot feed s
  | .coldReset => Sys2Proof.Machine.execColdReset s
  | .inputLoss => Sys2Proof.Machine.execInputLoss s
  | .rootLost => Sys2Proof.Machine.execRootLost s
  | .clockCheck results => Sys2Proof.Machine.execClockCheck results s
  | .gateCommand node en => Sys2Proof.Machine.execGateCommand node en s
  | .gtimeBeacon => Sys2Proof.Machine.execGtimeBeacon s
  | .beaconArrive f sent latency => Sys2Proof.Machine.execBeaconArrive f sent latency s
  | .hostDoorbell h r v => Sys2Proof.Machine.execHostDoorbell h r v s
  | .ringPoll r idx => Sys2Proof.Machine.execRingPoll r idx s
  | .ringEntryFetched r img => Sys2Proof.Machine.execRingEntryFetched r img s
  | .ringDeliveryAnswer r n a => Sys2Proof.Machine.execRingDeliveryAnswer r n a s
  | .ringHeldResume r => Sys2Proof.Machine.execRingHeldResume r s
  | .ringStop h r v => Sys2Proof.Machine.execRingStop h r v s
  | .ringResume h r v => Sys2Proof.Machine.execRingResume h r v s
  | .ringRestart h r v => Sys2Proof.Machine.execRingRestart h r v s
  | .hostWindowOp h p => Sys2Proof.Machine.execHostWindowOp h p s
  | .hostCompletion h k c => Sys2Proof.Machine.execHostCompletion h k c s
  | .completionRingPut h p => Sys2Proof.Machine.execCompletionRingPut h p s
  | .completionRingPoll r idx => Sys2Proof.Machine.execCompletionRingPoll r idx s
  | .completionRingFull r => Sys2Proof.Machine.execCompletionRingFull r s
  | .msixModeration r => Sys2Proof.Machine.execMsixModeration r s
  | .pcieLinkDown h why => Sys2Proof.Machine.execPcieLinkDown h why s
  | .perstAssert h => Sys2Proof.Machine.execPerstAssert h s
  | .perstDeassert h => Sys2Proof.Machine.execPerstDeassert h s
  | .viaductFrameReceive p fr => Sys2Proof.Machine.execViaductFrameReceive p fr s
  | .frameResendLimit p => Sys2Proof.Machine.execFrameResendLimit p s
  | .replayRateLimit p => Sys2Proof.Machine.execReplayRateLimit p s
  | .viaductPacketReceive p k => Sys2Proof.Machine.execViaductPacketReceive p k s
  | .returnedPacket p k => Sys2Proof.Machine.execReturnedPacket p k s
  | .pairChange => Sys2Proof.Machine.execPairChange s
  | .hello e j => Sys2Proof.Machine.execHello e j s
  | .helloReceive p k => Sys2Proof.Machine.execHelloReceive p k s
  | .helloAck p k => Sys2Proof.Machine.execHelloAck p k s
  | .helloTimeout e j => Sys2Proof.Machine.execHelloTimeout e j s
  | .timeExchange => Sys2Proof.Machine.execTimeExchange s
  | .timeReq p k => Sys2Proof.Machine.execTimeReq p k s
  | .timeResp p k => Sys2Proof.Machine.execTimeResp p k s
  | .linkDeadReport t d => Sys2Proof.Machine.execLinkDeadReport t d s
  | .probeTimeout t => Sys2Proof.Machine.execProbeTimeout t s
  | .statusPublish => Sys2Proof.Machine.execStatusPublish s
  | .windowWrite off v => Sys2Proof.Machine.execWindowWrite off v s
  | .perfCtrlWrite v => Sys2Proof.Machine.execPerfCtrlWrite v s
  | .counterCollection missing => Sys2Proof.Machine.execCounterCollection missing s
  | .queueDepthSample missing => Sys2Proof.Machine.execQueueDepthSample missing s
  | .eventReport e => Sys2Proof.Machine.execEventReport e s
  | .readWindow off len crossed => Sys2Proof.Machine.execReadWindow off len crossed s
  | .writeWindow off v => Sys2Proof.Machine.execWriteWindow off v s
  | .writeControl num v => Sys2Proof.Machine.execWriteControl num v s
  | .pldmSensorRead sensor => Sys2Proof.Machine.execPldmSensorRead sensor s
  | .getVersion tr => Sys2Proof.Machine.execGetVersion tr s
  | .getCapabilities tr => Sys2Proof.Machine.execGetCapabilities tr s
  | .negotiateAlgorithms tr => Sys2Proof.Machine.execNegotiateAlgorithms tr s
  | .getDigests tr => Sys2Proof.Machine.execGetDigests tr s
  | .getCertificate tr slot off len => Sys2Proof.Machine.execGetCertificate tr slot off len s
  | .challenge tr slot nonce => Sys2Proof.Machine.execChallenge tr slot nonce s
  | .getMeasurements tr idx sign => Sys2Proof.Machine.execGetMeasurements tr idx sign s
  | .keyExchange tr slot req => Sys2Proof.Machine.execKeyExchange tr slot req s
  | .finish tr sid => Sys2Proof.Machine.execFinish tr sid s
  | .heartbeat tr sid => Sys2Proof.Machine.execHeartbeat tr sid s
  | .keyUpdate tr sid => Sys2Proof.Machine.execKeyUpdate tr sid s
  | .endSession tr sid => Sys2Proof.Machine.execEndSession tr sid s
  | .sessionTimeout sid => Sys2Proof.Machine.execSessionTimeout sid s
  | .keyProg h j sid k key => Sys2Proof.Machine.execKeyProg h j sid k key s
  | .kSetGo h j sid k => Sys2Proof.Machine.execKSetGo h j sid k s
  | .kSetStop h j sid k => Sys2Proof.Machine.execKSetStop h j sid k s
  | .ideError h j => Sys2Proof.Machine.execIdeError h j s
  | .snapshotDue => Sys2Proof.Machine.execSnapshotDue s
  | .captureComplete n => Sys2Proof.Machine.execCaptureComplete n s
  | .shardCommit => Sys2Proof.Machine.execShardCommit s
  | .parityPiece p g k => Sys2Proof.Machine.execParityPiece p g k s
  | .parityEnd p g k => Sys2Proof.Machine.execParityEnd p g k s
  | .rebuildRequest p g k img => Sys2Proof.Machine.execRebuildRequest p g k img s
  | .rebuildRefusal p g k => Sys2Proof.Machine.execRebuildRefusal p g k s
  | .rebuildStart g => Sys2Proof.Machine.execRebuildStart g s
  | .parityDeadline g => Sys2Proof.Machine.execParityDeadline g s
  | .snapshotDeadline => Sys2Proof.Machine.execSnapshotDeadline s
  | .keystoneResetDone => Sys2Proof.Machine.execKeystoneResetDone s
  | .resetNRelease slot feed => Sys2Proof.Machine.execResetNRelease slot feed s
  | .busMasterEnableSet h => Sys2Proof.Machine.execBusMasterEnableSet h s
  | .completionTimeout h k => Sys2Proof.Machine.execCompletionTimeout h k s
  | .rejectionRecordWritten ok => Sys2Proof.Machine.execRejectionRecordWritten ok s
  | .vectorConsumerRelease t id => Sys2Proof.Machine.execVectorConsumerRelease t id s
  | .bankPortArbitration t reqs withdrawn => Sys2Proof.Machine.execBankPortArbitration t reqs withdrawn s

end Sys2Proof.Machine
end

