-- ==== Sys2Proof/Machine/Tick.lean ====
section
/-! DEFINITION. What time does without a command: one root cycle of ck_core where the clock is delivered, else one cycle of
ck_mgmt (log 2). Counts advance, copies of global time follow, and Piers take what waits for them. -/

namespace Sys2Proof.Machine

/-! ## A tile's cycle -/

/-- Does code run (R61)? -/
def SeqState.runs : SeqState → Bool
  | .entry | .handler | .trap => true
  | _ => false

/-- An operation of the issue buffer waits to leave (R220). -/
def IssueOp.niWaits (o : IssueOp) : Bool := match o.st with | .waiting | .requested | .retry _ => true | _ => false

/-- A SEND waits for credits (R236). -/
def IssueOp.creditWaits (o : IssueOp) : Bool :=
  o.kind = .send && (match o.st with | .requested | .retry _ => true | _ => false)

/-- Is the descriptor at work: fetched, and not complete? -/
def Desc.busy (d : Desc) : Bool := match d.phase with | .fetched | .issued | .latched => true | _ => false

/-- The 6-bit reversal of a cycle's place in its window (R128). -/
def rev6 (i : Nat) : Nat := (List.range 6).foldl (fun a j => a + bitsN i j 1 * 2 ^ (5 - j)) 0

/-- Is the cycle an issue cycle of the gate (R128)? -/
def Eng.open_ (e : Eng) (tm : Nat) : Bool := rev6 (tm % 64) < e.gate

/-- A ready beat that the gate holds: a product beat outside an issue cycle, a vector beat at gate value 0 (R128, R144).
`rm` and `rv` say that a beat of a latched matrix descriptor, of an issued vector descriptor, is ready. -/
def Eng.gateHolds (e : Eng) (tm : Nat) (rm rv : Bool) : Bool :=
  (e.mat.any (·.phase = .latched) && rm && !e.open_ tm) || (e.vec.any (·.phase = .issued) && rv && e.gate = 0)

/-- A busy matrix engine issues no product beat with the gate open (MAT_STALL). -/
def Eng.matStalls (e : Eng) (tm : Nat) (rm : Bool) : Bool :=
  e.mat.any (·.busy) && e.open_ tm && !(e.mat.any (·.phase = .latched) && rm)

/-- A busy vector engine starts no beat (VEC_STALL). -/
def Eng.vecStalls (e : Eng) (rv : Bool) : Bool :=
  e.vec.any (·.busy) && !(e.vec.any (·.phase = .issued) && rv && e.gate ≠ 0)

/-- One cycle of a tile, its timer at `tm`: watchdog (R61), pending steering entries (R81), waits of SENDs (R236), and the
counters of Table 21.6. `ready` says which engine has a beat ready. -/
def Tile.tick (x : Tile) (tm : Nat) (ready : Nat → Bool) : Tile :=
  let q := x.seq
  let x := if q.state.runs then x.modSeq fun q => { q with wdog := q.wdog + 1 } else x
  let x := if q.wait ≠ .none then x.count cSeqWait 1 else if q.state.runs then x.count cSeqBusy 1 else x
  let x := if x.eng.mat.any (·.busy) then x.count cMatBusy 1 else x
  let x := if x.eng.vec.any (·.busy) then x.count cVecBusy 1 else x
  let x := if x.eng.matStalls tm (ready 0) then x.count cMatStall 1 else x
  let x := if x.eng.vecStalls (ready 1) then x.count cVecStall 1 else x
  let x := if x.eng.gateHolds tm (ready 0) (ready 1) then x.count cGateHeld 1 else x
  let x := if x.ni.ops.any (·.niWaits) then x.count cNiWait 1 else x
  let sumWaits := x.comb.held && x.ni.inbox.any (·.vc = 2)
  let x := (List.range 8).foldl (fun x i =>
    if (x.queue i).comb then (if sumWaits then x.count (cQwait i) 1 else x)
    else if (x.queue i).waits.isEmpty then x else x.count (cQwait i) 1) x
  let x := x.modDf fun d =>
    { d with pend := d.pend.map fun p => if p.stopped then p else { p with count := min d.steerWait (p.count + 1) } }
  x.modNi fun n => { n with ops := n.ops.map fun o =>
    if o.creditWaits then { o with waited := min n.sendWait (o.waited + 1) } else o }

/-- Position of the counter VC1_CREDIT. -/
def cVc1Credit : Nat := 8

/-- Does a VC1 head in the router wait for a credit (R203)? -/
def State.vc1Starved (s : State) (t : Nat) : Bool :=
  (List.range 5).any fun o => (List.range 5).any fun i => match s.asks t o (5 * vcRank 1 + i) with
    | some p => !s.credit t o p
    | none => false

/-! ## Copies of global time (R339, R340) -/

/-- A copy advances by `d`, 1/256 faster or slower while it makes up an error, or stands until master time reaches it. -/
def copyStep (master d copy : Nat) (p : Pace) : Nat × Pace :=
  match p with
  | .normal => (copy + d, .normal)
  | .fast e => (copy + d + min e (d / 256), if e ≤ d / 256 then .normal else .fast (e - d / 256))
  | .slow e => (copy + d - min e (d / 256), if e ≤ d / 256 then .normal else .slow (e - d / 256))
  | .hold => if copy ≤ master * 65536 then (copy + d, .normal) else (copy, .hold)

def State.stepCopies (s : State) (d : Nat) : State :=
  let m := s.clk.master
  let fld := fun (x : Field) =>
    let c := copyStep m d x.copy x.pace
    { x with copy := c.1, pace := c.2 }
  let prt := fun (x : PciePort) =>
    let c := copyStep m d x.copy x.pace
    { x with copy := c.1, pace := c.2 }
  let vpt := fun (x : VdtPort) =>
    let c := copyStep m d x.copy x.pace
    { x with copy := c.1, pace := c.2 }
  { s with fields := s.fields.map fun (e : Nat × Field) => (e.1, fld e.2)
           ports := s.ports.map fun e => (e.1, prt e.2)
           vdt := { s.vdt with ports := s.vdt.ports.map fun e => (e.1, vpt e.2) } }

/-! ## Stretched fields (R314, R38) -/

/-- A stretch after one root cycle: two root cycles make a stretched cycle, and the last one goes on until STRETCH_END. -/
def stretchStep (n : Nat) : Nat := if n = 0 then 0 else if n = 1 then 2 else n - 1

/-- Does the root cycle that leads to stretch `n` complete a cycle of the field? -/
def cycleDone (n : Nat) : Bool := n % 2 = 0

/-- A field's part of a root cycle: a stretched one counts once, so its timer stands for every other root cycle. -/
def Field.step (x : Field) : Field :=
  let n := stretchStep x.stretch
  { x with stretch := n, resetAt := if cycleDone n then x.resetAt else x.resetAt + 1 }

/-! ## The cycle -/

/-- Is ck_core delivered (R260, R327)? -/
def State.coreRuns (s : State) : Bool := (s.mgmt.st = .bisque && s.clk.valid) || s.mgmt.st = .glost || s.inService

/-- The tiles of the fields that complete a cycle. -/
def State.tickTiles (s : State) : State :=
  let starved := (s.tiles.filter fun e => s.vc1Starved e.1).map (·.1)
  { s with tiles := s.tiles.map fun (e : Nat × Tile) =>
      if cycleDone (s.field (fieldOf e.1)).stretch then
        (e.1, (if starved.contains e.1 then e.2.count cVc1Credit 1 else e.2).tick (s.timer e.1)
          fun k => Config.beatReady k e.1 s.now)
      else e }

/-- One root cycle of ck_core, or, while it is not delivered, one cycle of ck_mgmt. -/
def State.tick (s : State) : State :=
  if s.coreRuns then
    let d := Config.period s.kiln.fstep
    let s := { s with now := s.now + 1, time := s.time + d, clk := s.clk.advance d,
                      fields := s.fields.map fun (e : Nat × Field) => (e.1, e.2.step) }
    (s.stepCopies (Config.period16 s.kiln.fstep)).tickTiles.piersTake.pierTimers.parityPump
  else { s with time := s.time + 630, clk := s.clk.advance 630 }

end Sys2Proof.Machine
end

