-- ==== Sys2Proof/Safety.lean ====
section
/-! DEFINITION. The words the statements use: when a sequencer issues an instruction, what such an instruction leaves
alone, when memories are in their canonical form, which units a command names. -/

namespace Sys2Proof.Machine

/-! ## The sequencer -/

/-- The sequencer of tile `t` runs code, waits for nothing, has no STOP or trap due, and the store holds at PC the
instruction `i`, `n` bytes long, the whole of it. -/
def State.atInstr (s : State) (t : Nat) (i : Instr) (n : Nat) : Bool :=
  t < Config.nTiles && i.formOk && (match i.word with
    | some (len, w) => len = n && (s.tile t).seq.canIssue && (s.tile t).fetches len w
    | none => false)
    && (s.seq t).pc.toNat + n ≤ 0x2000

/-- And the instruction is not the last of the store, so that control may pass on in sequence (R40). -/
def State.atSeq (s : State) (t : Nat) (i : Instr) (n : Nat) : Bool :=
  s.atInstr t i n && (s.seq t).pc.toNat + n < 0x2000

/-- Nothing but registers and PC of tile `t` differs. -/
def OnlyRegs (s : State) (t : Nat) (u : State) : Prop :=
  u = s.modTile t (·.modSeq fun q => { q with regs := (u.seq t).regs, pc := (u.seq t).pc })

/-- The instruction, `n` bytes long, completes: PC moves on, rd holds `v` (a write to s0 is discarded), and every other
register and everything else is unchanged. -/
def Writes (s : State) (t n : Nat) (rd : BitVec 4) (v : Word) (o : Out) : Prop :=
  ∃ u, o = .next u ∧ (u.seq t).pc = (s.seq t).pc + BitVec.ofNat 32 n
    ∧ (∀ r, (u.seq t).reg r = if r = rd ∧ rd ≠ 0 then v else (s.seq t).reg r) ∧ OnlyRegs s t u

/-- The instruction completes and jumps to `target`: registers and everything else are unchanged but rd, where it links. -/
def Jumps (s : State) (t : Nat) (target : Word) (rd : BitVec 4) (link : Word) (o : Out) : Prop :=
  ∃ u, o = .next u ∧ (u.seq t).pc = target
    ∧ (∀ r, (u.seq t).reg r = if r = rd ∧ rd ≠ 0 then link else (s.seq t).reg r) ∧ OnlyRegs s t u

/-- Registers and flags of tile `t` are unchanged. -/
def RegsFlagsSame (s u : State) (t : Nat) : Prop :=
  (u.seq t).regs = (s.seq t).regs ∧ (u.seq t).z = (s.seq t).z ∧ (u.seq t).n = (s.seq t).n ∧ (u.seq t).c = (s.seq t).c
    ∧ (u.seq t).v = (s.seq t).v

/-- Nothing but the tokens of tile `t`, in its tables, buffers and queues, differs. -/
def OnlyTokens (s : State) (t : Nat) (u : State) : Prop :=
  u = s.modTile t fun x => { x with df := (u.tile t).df, queues := (u.tile t).queues, comb := (u.tile t).comb }

/-- Every tile but `t` is unchanged. -/
def OthersSame (s u : State) (t : Nat) : Prop := ∀ t', t' ≠ t → u.tile t' = s.tile t'

/-- Every byte of tile `t`'s scratchpad outside `n` bytes at `a` reads as before. -/
def PadSameOutside (s u : State) (t a n : Nat) : Prop :=
  ∀ b < 65536, b < a ∨ a + n ≤ b → (u.tile t).pad.read b = (s.tile t).pad.read b

/-! ## The engine -/

/-- Where the end of start-up is due, the smallest working set is there, with the ports that have trained, so that the engine
serves and does not enter SAFE (R277, R278). -/
def State.MayServe (s : State) : Prop := s.mgmt.st = .glost → s.mgmt.glostDone = true →
  let ports := s.mgmt.qualPorts.getD ((List.range 4).filter fun h => (s.port h).trained)
  (s.modMgmt fun m => { m with qualPorts := some ports }).absent true = none

/-! ## Canonical forms -/

/-- The memories of a tile are canonical. -/
def Tile.memWf (x : Tile) : Bool := Mem.wf 0 x.pad.mem && Mem.wf 0 x.istore

end Sys2Proof.Machine
end

