-- ==== Sys2Proof/Certificates/Slice0/Obligations.lean ====
section
/-! DEFINITION. The statements for the provers. Each docstring says what the statement claims and names the rules of spec/
it rests on. A command's condition stands in its hypotheses; `∃ u, exec … s = .next u ∧ …` says that it completes there. -/

open Sys2Proof Sys2Proof.Machine

/-- A step with a command at the front of the queue is that command on the state with the queue's rest; with no command
waiting, time passes (the model's choice, log 2). -/
def Obligations.StepRunsCommand : Prop :=
  ∀ (s : State),
    (∀ c rest, s.pending = c :: rest → step s = exec c { s with pending := rest })
    ∧ (s.pending = [] → step s = .next s.tick)

/-- Each legal ALU, ADDI, ANDI, ORI, XORI, SHI, LUI and SELC, in its 32-bit and 16-bit forms, completes where the store holds
it at PC: rd takes the result that Tables 02.3, 02.4 and 02.7 give (a write to s0 is discarded), PC moves past the
instruction, and every other register, the flags, memory and all the rest are unchanged (R34, R42 to R45). -/
def Obligations.ArithmeticWrites : Prop :=
  ∀ (s : State) (t : Nat),
    let reg := (s.seq t).reg
    (∀ f : RR, s.atSeq t (.alu t (.w f)) 4 → f.hi = 0 →
      Writes s t 4 f.rd (aluFn f.fn.toNat (reg f.rs1) (reg f.rs2)) (exec (.alu t (.w f)) s))
    ∧ (∀ h : CHalf, s.atSeq t (.alu t (.c 0 h)) 2 → h.c = 0 → h.a ≠ 0 →
      Writes s t 2 h.a (reg h.b) (exec (.alu t (.c 0 h)) s))
    ∧ (∀ (k : Fin 5) (h : CHalf), s.atSeq t (.alu t (.c k.succ h)) 2 → h.c = 0 →
      Writes s t 2 h.a (aluFn k.val (reg h.a) (reg h.b)) (exec (.alu t (.c k.succ h)) s))
    ∧ (∀ f : RI, s.atSeq t (.addi t (.w f)) 4 →
      Writes s t 4 f.rd (reg f.rs1 + f.imm.signExtend 32) (exec (.addi t (.w f)) s))
    ∧ (∀ h : CHalf, s.atSeq t (.addi t (.li h)) 2 → Writes s t 2 h.a h.imm6 (exec (.addi t (.li h)) s))
    ∧ (∀ h : CHalf, s.atSeq t (.addi t (.addi h)) 2 →
      Writes s t 2 h.a (reg h.a + h.imm6) (exec (.addi t (.addi h)) s))
    ∧ (∀ f : RI, s.atSeq t (.andi t f) 4 → Writes s t 4 f.rd (reg f.rs1 &&& f.imm.signExtend 32) (exec (.andi t f) s))
    ∧ (∀ f : RI, s.atSeq t (.ori t f) 4 → Writes s t 4 f.rd (reg f.rs1 ||| f.imm.signExtend 32) (exec (.ori t f) s))
    ∧ (∀ f : RI, s.atSeq t (.xori t f) 4 → Writes s t 4 f.rd (reg f.rs1 ^^^ f.imm.signExtend 32) (exec (.xori t f) s))
    ∧ (∀ f : SH, s.atSeq t (.shi t (.w f)) 4 → f.hi = 0 → f.kind ≠ 3 →
      Writes s t 4 f.rd (shiFn f.kind.toNat (reg f.rs1) f.shamt.toNat) (exec (.shi t (.w f)) s))
    ∧ (∀ h : CHalf, s.atSeq t (.shi t (.shli h)) 2 → h.b.getLsbD 3 = false →
      Writes s t 2 h.a (reg h.a <<< h.low5) (exec (.shi t (.shli h)) s))
    ∧ (∀ h : CHalf, s.atSeq t (.shi t (.shri h)) 2 → h.b.getLsbD 3 = false →
      Writes s t 2 h.a (reg h.a >>> h.low5) (exec (.shi t (.shri h)) s))
    ∧ (∀ f : UF, s.atSeq t (.lui t f) 4 → Writes s t 4 f.rd (f.imm.zeroExtend 32 <<< 11) (exec (.lui t f) s))
    ∧ (∀ f : RR, s.atSeq t (.selc t f) 4 → f.hi = 0 → f.fn.toNat ≤ 12 →
      Writes s t 4 f.rd (if (s.seq t).holds f.fn.toNat then reg f.rs1 else reg f.rs2) (exec (.selc t f) s))

/-- The sixteen ALU functions on numbers: sums, differences and products modulo 2^32, the high half of the unsigned product,
signed and unsigned comparison, minimum and maximum of signed values, and unsigned division with the results that
Table 02.4 gives for a divisor of 0 (R43). -/
def Obligations.AluTable : Prop :=
  ∀ a b : Word,
    aluFn 0 a b = BitVec.ofNat 32 (a.toNat + b.toNat)
    ∧ aluFn 1 a b = BitVec.ofInt 32 (a.toInt - b.toInt)
    ∧ (∀ i, (aluFn 2 a b).getLsbD i = (a.getLsbD i && b.getLsbD i))
    ∧ (∀ i, (aluFn 3 a b).getLsbD i = (a.getLsbD i || b.getLsbD i))
    ∧ (∀ i, (aluFn 4 a b).getLsbD i = (a.getLsbD i != b.getLsbD i))
    ∧ aluFn 5 a b = BitVec.ofNat 32 (a.toNat * 2 ^ (b.toNat % 32))
    ∧ (aluFn 6 a b).toNat = a.toNat / 2 ^ (b.toNat % 32)
    ∧ (aluFn 7 a b).toInt = a.toInt / 2 ^ (b.toNat % 32)
    ∧ aluFn 8 a b = (if a.toInt < b.toInt then 1 else 0)
    ∧ aluFn 9 a b = (if a.toNat < b.toNat then 1 else 0)
    ∧ (aluFn 10 a b).toInt = min a.toInt b.toInt
    ∧ (aluFn 11 a b).toInt = max a.toInt b.toInt
    ∧ aluFn 12 a b = BitVec.ofNat 32 (a.toNat * b.toNat)
    ∧ (aluFn 13 a b).toNat = a.toNat * b.toNat / 2 ^ 32
    ∧ (b ≠ 0 → (aluFn 14 a b).toNat = a.toNat / b.toNat ∧ (aluFn 15 a b).toNat = a.toNat % b.toNat)
    ∧ aluFn 14 a 0 = 0xFFFFFFFF ∧ aluFn 15 a 0 = a

/-- CMP and CMPI, in both forms, complete where the store holds them: the flags are those of a − b (Z: equal; N: bit 31 of
the difference; C: no borrow; V: signed overflow), PC moves on, and registers, memory and all the rest are unchanged
(R44).
BCC, JAL and JALR in both forms. A branch whose condition holds, and a jump, move PC to their target where it lies in the
store; a branch whose condition does not hold moves on. JAL and JALR write PC + 4 to rd; C.J and C.JR write nothing. All
the rest is unchanged (R34, R42, Tables 02.3 and 02.7). -/
def Obligations.FlagsAndBranches : Prop :=
  (
    ∀ (s : State) (t : Nat),
      let reg := (s.seq t).reg
      let compares := fun (n : Nat) (a b : Word) (o : Out) => o = .next (s.modTile t (·.modSeq fun q =>
        { q with
          pc := q.pc + BitVec.ofNat 32 n
          z := decide (a = b)
          n := (a - b).msb
          c := decide (b.toNat ≤ a.toNat)
          v := decide ((a - b).toInt ≠ a.toInt - b.toInt) }))
      (∀ f : RR, s.atSeq t (.cmp t (.w f)) 4 → f.rd = 0 → f.fn = 0 → f.hi = 0 →
        compares 4 (reg f.rs1) (reg f.rs2) (exec (.cmp t (.w f)) s))
      ∧ (∀ h : CHalf, s.atSeq t (.cmp t (.c h)) 2 → h.c = 0 → compares 2 (reg h.a) (reg h.b) (exec (.cmp t (.c h)) s))
      ∧ (∀ f : RI, s.atSeq t (.cmpi t (.w f)) 4 → f.rd = 0 →
        compares 4 (reg f.rs1) (f.imm.signExtend 32) (exec (.cmpi t (.w f)) s))
      ∧ (∀ h : CHalf, s.atSeq t (.cmpi t (.c h)) 2 → compares 2 (reg h.a) h.imm6 (exec (.cmpi t (.c h)) s)))
  ∧ (
    ∀ (s : State) (t : Nat),
      let reg := (s.seq t).reg
      let pc := (s.seq t).pc
      let holds := (s.seq t).holds
      let to4 := fun (imm : Word) => pc + (imm <<< 1)
      (∀ f : BF, s.atInstr t (.bcc t (.w f)) 4 → f.cond.toNat ≤ 12 → holds f.cond.toNat = true →
        (to4 (f.imm.signExtend 32)).toNat < 0x2000 →
        Jumps s t (to4 (f.imm.signExtend 32)) 0 0 (exec (.bcc t (.w f)) s))
      ∧ (∀ f : BF, s.atSeq t (.bcc t (.w f)) 4 → f.cond.toNat ≤ 12 → holds f.cond.toNat = false →
        Writes s t 4 0 0 (exec (.bcc t (.w f)) s))
      ∧ (∀ h : CHalf, s.atInstr t (.bcc t (.c h)) 2 → h.a.toNat ≤ 12 → holds h.a.toNat = true →
        (to4 h.imm6).toNat < 0x2000 → Jumps s t (to4 h.imm6) 0 0 (exec (.bcc t (.c h)) s))
      ∧ (∀ h : CHalf, s.atSeq t (.bcc t (.c h)) 2 → h.a.toNat ≤ 12 → holds h.a.toNat = false →
        Writes s t 2 0 0 (exec (.bcc t (.c h)) s))
      ∧ (∀ f : UF, s.atInstr t (.jal t (.w f)) 4 → (to4 (f.imm.signExtend 32)).toNat < 0x2000 →
        Jumps s t (to4 (f.imm.signExtend 32)) f.rd (pc + 4) (exec (.jal t (.w f)) s))
      ∧ (∀ h : CHalf, s.atInstr t (.jal t (.c h)) 2 → (to4 h.imm10).toNat < 0x2000 →
        Jumps s t (to4 h.imm10) 0 0 (exec (.jal t (.c h)) s))
      ∧ (∀ f : RI, s.atInstr t (.jalr t (.w f)) 4 → ((reg f.rs1 + f.imm.signExtend 32) &&& 0xFFFFFFFE).toNat < 0x2000 →
        Jumps s t ((reg f.rs1 + f.imm.signExtend 32) &&& 0xFFFFFFFE) f.rd (pc + 4) (exec (.jalr t (.w f)) s))
      ∧ (∀ h : CHalf, s.atInstr t (.jalr t (.c h)) 2 → h.a = 0 → h.c = 0 → (reg h.b &&& 0xFFFFFFFE).toNat < 0x2000 →
        Jumps s t (reg h.b &&& 0xFFFFFFFE) 0 0 (exec (.jalr t (.c h)) s)))

/-- LD and C.LD at an aligned address within the scratchpad whose words are correctable: rd takes the bytes from the
effective address on, little-endian, extended as W says (W 0 unsigned byte, 1 halfword, 2 word, 3 signed byte); PC moves on;
the other registers, the flags, every tile's scratchpad, and every other tile are unchanged (R36, R42). -/
def Obligations.LoadsRead : Prop :=
  ∀ (s : State) (t : Nat),
    let reg := (s.seq t).reg
    let loads := fun (n : Nat) (rd : BitVec 4) (w : Nat) (a : Word) (o : Out) =>
      lsBad a (wBytes w) = false → (s.tile t).pad.bad a.toNat (wBytes w) = false →
      ∃ u, o = .next u ∧ (u.seq t).pc = (s.seq t).pc + BitVec.ofNat 32 n
        ∧ (∀ r, (u.seq t).reg r = if r = rd ∧ rd ≠ 0 then loadValue w ((s.tile t).pad.bytes a.toNat (wBytes w)) else reg r)
        ∧ (u.seq t).z = (s.seq t).z ∧ (u.seq t).n = (s.seq t).n ∧ (u.seq t).c = (s.seq t).c ∧ (u.seq t).v = (s.seq t).v
        ∧ (∀ x b, (u.tile x).pad.read b = (s.tile x).pad.read b) ∧ OthersSame s u t
    (∀ f : MF, s.atSeq t (.ld t (.w f)) 4 → f.z = 0 →
      loads 4 f.rd f.w.toNat (reg f.rs1 + f.imm.signExtend 32) (exec (.ld t (.w f)) s))
    ∧ (∀ h : CHalf, s.atSeq t (.ld t (.c h)) 2 →
      loads 2 h.a 2 (reg h.b + BitVec.ofNat 32 (4 * h.c.toNat)) (exec (.ld t (.c h)) s))

/-- ST and C.ST at an aligned address within the scratchpad, outside the words that the hardware keeps for the queues: the
1, 2 or 4 low bytes of the data register stand at the effective address where its bank is on, every byte of the tile's
scratchpad outside them reads as before, PC moves on, and registers, flags and every other tile are unchanged
(R36, R42, R191). -/
def Obligations.StoresWrite : Prop :=
  ∀ (s : State) (t : Nat),
    let reg := (s.seq t).reg
    let stores := fun (n w : Nat) (a v : Word) (o : Out) =>
      lsBad a (wBytes w) = false → (a.toNat < 0xFF00 ∨ 0xFF40 ≤ a.toNat) → (a.toNat < 0xFF68 ∨ 0xFF6C ≤ a.toNat) →
      ∃ u, o = .next u ∧ (u.seq t).pc = (s.seq t).pc + BitVec.ofNat 32 n
        ∧ (∀ j < wBytes w, (s.tile t).pad.bankOn (a.toNat + j) = true →
            (u.tile t).pad.read (a.toNat + j) = BitVec.ofNat 8 (v.toNat / 256 ^ j))
        ∧ PadSameOutside s u t a.toNat (wBytes w) ∧ RegsFlagsSame s u t ∧ OthersSame s u t
    (∀ f : MF, s.atSeq t (.st t (.w f)) 4 → f.z = 0 → f.w ≠ 3 →
      stores 4 f.w.toNat (reg f.rs1 + f.imm.signExtend 32) (reg f.rd) (exec (.st t (.w f)) s))
    ∧ (∀ h : CHalf, s.atSeq t (.st t (.c h)) 2 →
      stores 2 2 (reg h.b + BitVec.ofNat 32 (4 * h.c.toNat)) (reg h.a) (exec (.st t (.c h)) s))

/-- MFS and C.MFS of every listed register complete: rd takes its value, PC moves on, the other registers and every other
tile are unchanged; reading TIMER_LO latches TIMER_HI, reading GTIME_LO latches GTIME_HI, reading FLOWFAILS clears it, and no
other special register changes. MTS writes TRAPVEC, or restarts the watchdog count, and nothing else (R37, R38, R58, R61). -/
def Obligations.SpecialRegisters : Prop :=
  ∀ (s : State) (t : Nat),
    let reads := fun (n num : Nat) (rd : BitVec 4) (o : Out) => ∀ v, s.mfs t num = some v →
      ∃ u, o = .next u ∧ (u.seq t).pc = (s.seq t).pc + BitVec.ofNat 32 n
        ∧ (∀ r, (u.seq t).reg r = if r = rd ∧ rd ≠ 0 then v else (s.seq t).reg r)
        ∧ u = s.modTile t (·.modSeq fun q => { q with
            regs := (u.seq t).regs
            pc := (u.seq t).pc
            timerHi := if num = 5 then BitVec.ofNat 32 (s.timer t / 2 ^ 32) else q.timerHi
            gtimeHi := if num = 7 then BitVec.ofNat 32 (s.gtime (fieldOf t) / 2 ^ 32) else q.gtimeHi
            flowFails := if num = 23 then 0 else q.flowFails })
    (∀ f : SF, s.atSeq t (.mfs t (.w f)) 4 → f.rs1 = 0 → f.z = 0 → reads 4 f.num.toNat f.rd (exec (.mfs t (.w f)) s))
    ∧ (∀ h : CHalf, s.atSeq t (.mfs t (.c h)) 2 → reads 2 h.low6 h.a (exec (.mfs t (.c h)) s))
    ∧ (∀ f : SF, s.atSeq t (.mts t f) 4 → f.rd = 0 → f.z = 0 → f.num = 17 →
      exec (.mts t f) s = .next (s.modTile t (·.modSeq fun q =>
        { q with trapVec := (q.reg f.rs1).setWidth 13, pc := q.pc + 4 })))
    ∧ (∀ f : SF, s.atSeq t (.mts t f) 4 → f.rd = 0 → f.z = 0 → f.num = 22 →
      exec (.mts t f) s = .next (s.modTile t (·.modSeq fun q => { q with wdog := 0, pc := q.pc + 4 })))

/-- EDESC with room in the engine's queue of 4 places the descriptor at the queue's end with TAG's iteration index and the
tile's COURSE; WAITE and FENCE move on when the engines named, or the issue buffer, are idle, and wait at their own PC
otherwise; WAITW and each later poll deliver the word to rd when one of the mask's bits is set, and wait otherwise; EMIT
puts a token into a local token buffer with room; C.NOP moves on. Registers not named and every other tile are unchanged
(R42, R47 to R51, R65, R69). -/
def Obligations.WaitsAndTokens : Prop :=
  ∀ (s : State) (t : Nat),
    let q := s.seq t
    let moves := fun (n : Nat) (o : Out) => ∃ u, o = .next u ∧ (u.seq t).pc = q.pc + BitVec.ofNat 32 n
      ∧ (u.seq t).wait = .none ∧ RegsFlagsSame s u t ∧ OthersSame s u t
    let waits := fun (w : Wait) (o : Out) => ∃ u, o = .next u ∧ (u.seq t).pc = q.pc ∧ (u.seq t).wait = w
      ∧ RegsFlagsSame s u t ∧ OthersSame s u t
    let polls := fun (rd : BitVec 4) (a : Nat) (mask : Word) (o : Out) => (s.tile t).pad.bad a 4 = false →
      let w := (s.tile t).pad.word a
      (w &&& mask ≠ 0 → ∃ u, o = .next u ∧ (u.seq t).pc = q.pc + 4 ∧ (u.seq t).wait = .none
        ∧ (∀ r, (u.seq t).reg r = if r = rd ∧ rd ≠ 0 then w else q.reg r) ∧ OthersSame s u t)
      ∧ (w &&& mask = 0 → waits (.waitw rd a mask) o)
    (∀ f : RR, s.atSeq t (.edesc t f) 4 → f.hi = 0 → f.rd = 0 → f.rs2 = 0 → f.fn.toNat < 2 →
      (q.reg f.rs1).toNat ≤ 0xFFFF → (q.reg f.rs1).toNat % 32 = 0 →
      let d : Desc := { off := (q.reg f.rs1).toNat, tag := mkTag (s.tile t).course (tagIter q.tag), entry := q.charged }
      let e := (s.tile t).eng
      (f.fn = 0 → e.mat.length < 4 → moves 4 (exec (.edesc t f) s) ∧ ∃ u, exec (.edesc t f) s = .next u
        ∧ (u.tile t).eng.mat = e.mat ++ [d] ∧ (u.tile t).eng.vec = e.vec)
      ∧ (f.fn = 1 → e.vec.length < 4 → moves 4 (exec (.edesc t f) s) ∧ ∃ u, exec (.edesc t f) s = .next u
        ∧ (u.tile t).eng.vec = e.vec ++ [d] ∧ (u.tile t).eng.mat = e.mat))
    ∧ (∀ f : RR, s.atSeq t (.waite t (.w f)) 4 → f.hi = 0 → f.rd = 0 → f.rs1 = 0 → f.rs2 = 0 → f.fn ≠ 0 → f.fn.toNat < 4 →
      ((s.tile t).engIdle f.fn.toNat = true → moves 4 (exec (.waite t (.w f)) s))
      ∧ ((s.tile t).engIdle f.fn.toNat = false → waits (.waite f.fn.toNat) (exec (.waite t (.w f)) s)))
    ∧ (∀ h : CHalf, s.atSeq t (.waite t (.c h)) 2 → h.a ≠ 0 → h.a.toNat < 4 → h.b = 0 → h.c = 0 →
      (s.tile t).engIdle h.a.toNat = true → moves 2 (exec (.waite t (.c h)) s))
    ∧ (∀ f : RR, s.atSeq t (.waitw t f) 4 → f.hi = 0 → f.fn = 0 → lsBad (q.reg f.rs1) 4 = false →
      polls f.rd (q.reg f.rs1).toNat (q.reg f.rs2) (exec (.waitw t f) s))
    ∧ (∀ rd a mask, t < Config.nTiles → q.wait = .waitw rd a mask → ({ q with wait := .none } : Seq).canIssue = true →
      polls rd a mask (exec (.waitwPoll t) s))
    ∧ (∀ f : RR, s.atSeq t (.emit t (.w f)) 4 → f.hi.toNat < 2 → f.fn.toNat < 8 → f.rd = 0 → (f.hi = 0 → f.rs2 = 0) →
      (s.tile t).bound (f.fn.toNat + 8) = true → (s.tile t).df.ltb.length < 8 →
      moves 4 (exec (.emit t (.w f)) s) ∧ ∃ u, exec (.emit t (.w f)) s = .next u
        ∧ (u.tile t).df.ltb = (s.tile t).df.ltb ++ [⟨f.fn.toNat + 8, mkTag (s.tile t).course
            (if f.hi = 0 then tagIter q.tag else (q.reg f.rs2).setWidth 12), q.reg f.rs1, none⟩])
    ∧ (∀ h : CHalf, s.atSeq t (.emit t (.c h)) 2 → 8 ≤ h.a.toNat → h.c = 0 →
      (s.tile t).bound h.a.toNat = true → (s.tile t).df.ltb.length < 8 →
      moves 2 (exec (.emit t (.c h)) s) ∧ ∃ u, exec (.emit t (.c h)) s = .next u
        ∧ (u.tile t).df.ltb = (s.tile t).df.ltb ++ [⟨h.a.toNat, mkTag (s.tile t).course (tagIter q.tag), q.reg h.b, none⟩])
    ∧ (∀ x : XF, s.atSeq t (.fence t (.w x)) 4 → x = ⟨0, 0, 0, 0, 0⟩ →
      ((s.tile t).ni.ops = [] → moves 4 (exec (.fence t (.w x)) s))
      ∧ ((s.tile t).ni.ops ≠ [] → waits .fence (exec (.fence t (.w x)) s)))
    ∧ (∀ h : CHalf, s.atSeq t (.fence t (.c h)) 2 → h.b = 0 → h.c = 0 → (s.tile t).ni.ops = [] →
      moves 2 (exec (.fence t (.c h)) s))
    ∧ (∀ h : CHalf, s.atSeq t (.cNop t h) 2 → h.b = 0 → h.c = 0 → moves 2 (exec (.cNop t h) s))

/-- DONE ends the handler: IDLE, trap entry enabled, the watchdog count 0, and its address kept for the next trap taken in
IDLE, but where it ends only the trap handler of a trap taken in IDLE. TRAP with entry enabled and a handler set takes
cause 6 with imm9 sign-extended in TRAPVAL and the next instruction's address in TRAPPC, disables trap entry and goes to
TRAPVEC in state TRAP. RTT in state TRAP restores the interrupted state and, where that is not IDLE, PC from TRAPPC, and
enables trap entry. HALT in the entry routine stops the sequencer. No register but PC changes (R55 to R57).
An encoding that no row of Tables 02.3 and 02.7 defines takes cause 1 with its bits in TRAPVAL and its own address in
TRAPPC, with no other effect. TRAP_ENTRY at an instruction boundary enters the pending cause with the lowest number. A
watchdog count at its limit makes cause 13 pending where it is not pending yet, and, with trap entry disabled, is a double
trap that ends in TRAPPED whatever is pending (R55 to R61). -/
def Obligations.HandlersAndTraps : Prop :=
  (
    ∀ (s : State) (t : Nat),
      let q := s.seq t
      let dones := fun (o : Out) => ∃ u, o = .next u ∧ (u.seq t).state = .idle ∧ (u.seq t).trapEn = true
        ∧ (u.seq t).wdog = 0 ∧ (u.seq t).running = none ∧ (u.seq t).lastDone = (if q.state = .trap ∧ q.interrupted = .idle then q.lastDone else q.pc.setWidth 13)
        ∧ RegsFlagsSame s u t ∧ OthersSame s u t
      let returns := fun (o : Out) => ∃ u, o = .next u ∧ (u.seq t).state = q.interrupted ∧ (u.seq t).trapEn = true
        ∧ (q.interrupted ≠ .idle → (u.seq t).pc = q.trapPc.zeroExtend 32) ∧ RegsFlagsSame s u t ∧ OthersSame s u t
      (∀ f : RR, s.atInstr t (.doneHandler t (.w f)) 4 → f = ⟨0, 0, 0, 0, 0⟩ → dones (exec (.doneHandler t (.w f)) s))
      ∧ (∀ h : CHalf, s.atInstr t (.doneHandler t (.c h)) 2 → h.b = 0 → h.c = 0 → dones (exec (.doneHandler t (.c h)) s))
      ∧ (∀ f : RR, s.atInstr t (.trapSoft t f) 4 → f.rd = 0 → f.rs1 = 0 → f.rs2 = 0 → q.trapEn = true → q.trapVec ≠ 0 →
        ∃ u, exec (.trapSoft t f) s = .next u ∧ (u.seq t).trapCause = 6 ∧ (u.seq t).trapVal = f.hi.signExtend 32
          ∧ (u.seq t).trapPc = (q.pc + 4).setWidth 13 ∧ (u.seq t).trapInfo = 0 ∧ (u.seq t).trapEn = false
          ∧ (u.seq t).state = .trap ∧ (u.seq t).interrupted = q.state ∧ (u.seq t).pc = q.trapVec.zeroExtend 32
          ∧ (u.seq t).wdog = 0 ∧ RegsFlagsSame s u t ∧ OthersSame s u t)
      ∧ (∀ f : RR, s.atInstr t (.rtt t (.w f)) 4 → q.state = .trap → f.rd = 0 → f.rs1 = 0 → f.rs2 = 0 → f.hi = 0 →
        returns (exec (.rtt t (.w f)) s))
      ∧ (∀ h : CHalf, s.atInstr t (.rtt t (.c h)) 2 → q.state = .trap → h.b = 0 → h.c = 0 → returns (exec (.rtt t (.c h)) s))
      ∧ (∀ f : RR, s.atInstr t (.halt t f) 4 → q.state = .entry → f.rd = 0 → f.rs1 = 0 → f.rs2 = 0 → f.hi = 0 →
        ∃ u, exec (.halt t f) s = .next u ∧ (u.seq t).state = .stopped ∧ RegsFlagsSame s u t ∧ OthersSame s u t))
  ∧ (
    ∀ (s : State) (t : Nat),
      let q := s.seq t
      let enters := fun (cause : Nat) (pc : BitVec 13) (v : Word) (info : Nat) (o : Out) =>
        ∃ u, o = .next u ∧ (u.seq t).trapCause = cause ∧ (u.seq t).trapPc = pc ∧ (u.seq t).trapVal = v
          ∧ (u.seq t).trapInfo = info ∧ (u.seq t).trapEn = false ∧ RegsFlagsSame s u t
          ∧ (q.trapVec ≠ 0 → (u.seq t).state = .trap ∧ (u.seq t).pc = q.trapVec.zeroExtend 32 ∧ OthersSame s u t)
          ∧ (q.trapVec = 0 → (u.seq t).state = .trapped)
      (∀ w : Word, s.atInstr t (.alu t (.undef32 w)) 4 → q.trapEn = true →
        enters 1 (q.pc.setWidth 13) w 0 (exec (.alu t (.undef32 w)) s))
      ∧ (∀ h : BitVec 16, s.atInstr t (.alu t (.undef16 h)) 2 → q.trapEn = true →
        enters 1 (q.pc.setWidth 13) (h.zeroExtend 32) 0 (exec (.alu t (.undef16 h)) s))
      ∧ (∀ p, t < Config.nTiles → p ∈ q.pend → (∀ p' ∈ q.pend, p' = p ∨ p.cause < p'.cause) → q.mayTrap = true →
        enters p.cause q.asyncPc p.val p.info (exec (.trapEntry t) s))
      ∧ (t < Config.nTiles → (q.state = .entry ∨ q.state = .handler ∨ q.state = .trap) → q.wdogLimit ≤ q.wdog →
        (q.trapEn = true → (∀ p ∈ q.pend, p.cause ≠ 13) → ∃ u, exec (.seqWatchdog t) s = .next u
          ∧ (u.seq t).pend = q.pend ++ [⟨13, BitVec.ofNat 32 q.wdogLimit, 0, q.wdogLimit⟩] ∧ OthersSame s u t)
        ∧ (q.trapEn = true → (∃ p ∈ q.pend, p.cause = 13) → exec (.seqWatchdog t) s = .next s)
        ∧ (q.trapEn = false → ∃ u, exec (.seqWatchdog t) s = .next u ∧ (u.seq t).state = .trapped
          ∧ (u.seq t).trapCause = 0x10 ∧ (u.seq t).trapVal = 13)))

/-- An RMO whose operands pass the checks of R47, with a free entry in the issue buffer and no landing conflict, enters the
buffer as the operation that its operands spell, and the sequencer moves on; a 32-bit ATOMIC with a destination register
holds the sequencer at its own PC until its answer. A stalled RMO does the same when it is released. The answer of a
blocking ATOMIC writes the old value to rd and lets the sequencer go on (R47, R51, R214, R216). -/
def Obligations.RemoteIssue : Prop :=
  ∀ (s : State) (t : Nat),
    let y := s.tile t
    let entersBuffer := fun (k : RmoKind) (x : XF) (o : Out) => ∀ id, y.seq.rmoCause k x = none → y.ni.freeId = some id →
      y.landStall s.now (s.rmoOp t id k x) = false →
      let e := s.declareLanding t (s.rmoOp t id k x)
      o = .next (if k = .atomic ∧ x.sub.getLsbD 3 = false ∧ x.rd ≠ 0 then (e.1.waitIn t (.atomic id x.rd)).enterOp t e.2
        else ((e.1.waitIn t .none).advance t 4).enterOp t e.2)
    (∀ x, s.atSeq t (.rmoPut t x) 4 → entersBuffer .put x (exec (.rmoPut t x) s))
    ∧ (∀ x, s.atSeq t (.rmoGet t x) 4 → entersBuffer .get x (exec (.rmoGet t x) s))
    ∧ (∀ x, s.atSeq t (.rmoAtomic t x) 4 → entersBuffer .atomic x (exec (.rmoAtomic t x) s))
    ∧ (∀ x, s.atSeq t (.rmoSignal t x) 4 → entersBuffer .signal x (exec (.rmoSignal t x) s))
    ∧ (∀ x, s.atSeq t (.rmoSend t x) 4 → entersBuffer .send x (exec (.rmoSend t x) s))
    ∧ (∀ x, s.atSeq t (.flowReset t x) 4 → entersBuffer .flowReset x (exec (.flowReset t x) s))
    ∧ (∀ x, s.atSeq t (.rmoPutReduce t x) 4 → entersBuffer .putReduce x (exec (.rmoPutReduce t x) s))
    ∧ (∀ k x, t < Config.nTiles → y.seq.wait = .stall (.rmo k x) → ({ y.seq with wait := .none } : Seq).canIssue = true →
      entersBuffer k x (exec (.stallRelease t) s))
    ∧ (∀ rd v, t < Config.nTiles → y.seq.wait = .atomicDone rd (some v) → y.seq.stopPend = false →
      ∃ u, exec (.atomicResult t) s = .next u ∧ (u.seq t).pc = y.seq.pc + 4 ∧ (u.seq t).wait = .none
        ∧ (∀ r, (u.seq t).reg r = if r = rd ∧ rd ≠ 0 then v else y.seq.reg r) ∧ OthersSame s u t)

/-- START of a STOPPED tile whose tables pass runs the entry routine at ENTRY with TAG 0; a tile whose tables fail stays
STOPPED with ACT_ERR, TRAPCAUSE 15 and the first offender's number. STOP of a running tile, outside a blocking ATOMIC, makes
it STOPPED. Reading TILE_TIMER_LO latches the high word. A register write obeys the field's type: the clamped limits, the
write-1-to-clear bit, the plain recovery registers, and nothing at a read-only offset (R9, R38, R53, R55, R62, R63, R82,
R201, R237, R294). -/
def Obligations.TileControlWrites : Prop :=
  ∀ (s : State) (t : Nat), t < Config.nTiles →
    let x := s.tile t
    let writes := fun (off : Nat) (v : Word) (f : Tile → Tile) =>
      exec (.registerWrite (.tile t off false) v) s = .next (s.modTile t f)
    (x.seq.state = .stopped → x.startFault = none → ∃ u, exec (.start t) s = .next u ∧ (u.seq t).state = .entry
      ∧ (u.seq t).pc = x.seq.entry.zeroExtend 32 ∧ (u.seq t).tag = 0 ∧ (u.seq t).trapEn = true ∧ (u.seq t).wdog = 0
      ∧ OthersSame s u t)
    ∧ (∀ v, x.seq.state = .stopped → x.startFault = some v → ∃ u, exec (.start t) s = .next u
      ∧ (u.seq t).state = .stopped ∧ (u.seq t).actErr = true ∧ (u.seq t).trapCause = 15
      ∧ (u.seq t).trapVal = BitVec.ofNat 32 v ∧ OthersSame s u t)
    ∧ (x.seq.state ≠ .stopped → x.seq.state ≠ .trapped → x.seq.wait.blocking = false →
      ∃ u, exec (.stop t) s = .next u ∧ (u.seq t).state = .stopped ∧ RegsFlagsSame s u t ∧ OthersSame s u t)
    ∧ exec (.tileTimerLoRead t) s = .next (s.modTile t (·.modSeq fun q =>
        { q with timerHi := BitVec.ofNat 32 (s.timer t / 2 ^ 32) }))
    ∧ (∀ v, writes 0x0C v (·.modSeq fun q => { q with wdogLimit := max 1024 (min 2147483648 v.toNat) }))
    ∧ (∀ v, writes 0x30 v (·.modDf fun d => { d with steerWait := max 256 (min 16777216 (v.toNat % 2 ^ 25)) }))
    ∧ (∀ v, writes 0x34 v (·.modNi fun n => { n with sendWait := max 64 (min 1048576 (v.toNat % 2 ^ 21)) }))
    ∧ (∀ v : Word, writes 0x08 v (·.modSeq fun q => { q with actErr := q.actErr && !v.getLsbD 8 }))
    ∧ (∀ v, exec (.registerWrite (.tile t 0x38 false) v) s = .next s)
    ∧ (∀ v, exec (.registerWrite (.tile t 0x38 true) v) s = .next (s.modTile t (·.modRtr fun r =>
        { r with arbWait := max 2 (min 255 (v.toNat % 256)) })))
    ∧ (∀ v off, off ∈ [0x00, 0x10, 0x14, 0x18, 0x20, 0x24, 0x100, 0x13C] →
        exec (.registerWrite (.tile t off false) v) s = .next s)
    ∧ (∀ h v, h < 4 → (s.port h).linkUp = true →
        exec (.registerWrite (.bar2 h 0xFF08) v) s = .next (s.modKs (portSide h) fun k =>
          { k with rcv := { k.rcv with len := v.toNat % 2 ^ 27 } }))

/-- A token whose source's turn has come, where the unit has taken none in this cycle (R70). An incomplete entry of its action and tag takes it as its operand; else a free
entry is opened for it; either is READY in the next cycle once it has all its operands (R72, R74). A token that no action
names is discarded and counted, a stale one is discarded and counted (R68, R84), and the message it stands for is released.
A token that the full table alone holds back makes cause 0x0B pending, once (R73). -/
def Obligations.MatchUnit : Prop :=
  ∀ (s : State) (t : Nat) (src : TokSrc) (k : Token), t < Config.nTiles →
    let x := s.tile t
    let run := exec (.matchToken t src) s
    let popped := fun (y : Tile) => (y.srcPop src).modDf fun d =>
      { d with lastQ := srcQueue d.lastQ src, matchFullRaised := false, matchAt := some s.now }
    x.matchTok src = some k → x.seq.state ≠ .stopped →
    (x.matchSource = some src → x.df.matchAt = some s.now → run = .next s)
    ∧ (x.matchSource = some src → x.df.matchAt ≠ some s.now → tagCourse k.tag = x.course →
      (∀ j i m, x.matchCase k = .fill j i → tGet? x.df.table j = some m → ∃ u, run = .next u ∧ OnlyTokens s t u
        ∧ (∀ e, tGet? (u.tile t).df.table e = if e = j then some { m with
            ops := m.ops.set i (some k)
            state := if (m.ops.set i (some k)).all Option.isSome then .ready (s.now + 1) else .part }
          else tGet? x.df.table e))
      ∧ (∀ j n i, x.matchCase k = .fresh j n i → ∃ u m, run = .next u ∧ OnlyTokens s t u
        ∧ (∀ e, tGet? (u.tile t).df.table e = if e = j then some m else tGet? x.df.table e)
        ∧ m.action = n ∧ m.tag = k.tag ∧ m.ops.length = x.actNops n ∧ m.ops.getD i none = some k
        ∧ m.state = (if x.actNops n = 1 then .ready (s.now + 1) else .part) ∧ m.desc = 0 ∧ m.rops = 0)
      ∧ (x.matchCase k = .unbound →
        run = .next ((s.modTile t fun y => (popped y).count cUnbound 1).releaseTok t k)))
    ∧ (x.matchSource = some src → x.df.matchAt ≠ some s.now → tagCourse k.tag ≠ x.course → x.staleRaised = true →
        run = .next ((s.modTile t fun y => (y.srcPop src).count cStale 1).releaseTok t k))
    ∧ (x.matchSource ≠ some src → x.matchCase k = .full → tagCourse k.tag = x.course → x.df.matchFullRaised = false →
        (∀ p ∈ x.seq.pend, p.cause ≠ 0x0B) →
        run = .next (s.modTile t fun y => { y with
          df := { y.df with matchFullRaised := true }
          seq := { y.seq with pend := y.seq.pend ++ [⟨0x0B, k.tag.zeroExtend 32, 0, k.tag.toNat⟩] } }))

/-- ACTION_FIRE in IDLE, no trap due: the READY entry that comes first runs; operand i is in s(12 + i), s1 to s11 keep their
values, TAG is the entry's tag, the watchdog count 0 and PC the action's entry point, which PRED moves by 4 for each step
of the last operand's value (R54, R74, R77). ENTRY_RETIRE of a draining entry with nothing outstanding frees it and no
other entry (R75). -/
def Obligations.FireAndRetire : Prop :=
  ∀ (s : State) (t : Nat), t < Config.nTiles →
    let x := s.tile t
    (∀ j m, firstReady s.now x.df.table = some (j, m) → x.seq.state = .idle → x.seq.pend = [] ∨ x.seq.trapEn = false →
      m.ops.length ≤ 4 → x.entryPoint m < 0x2000 →
      ∃ u, exec (.actionFire t) s = .next u ∧ (u.seq t).state = .handler
        ∧ (u.seq t).pc = BitVec.ofNat 32 (x.entryPoint m) ∧ (u.seq t).tag = m.tag ∧ (u.seq t).action = m.action
        ∧ (u.seq t).running = some j ∧ (u.seq t).wdog = 0
        ∧ (∀ i k, i < m.ops.length → m.ops.getD i none = some k → (u.seq t).reg (BitVec.ofNat 4 (12 + i)) = k.value)
        ∧ (∀ r : BitVec 4, r.toNat < 12 → (u.seq t).reg r = (s.seq t).reg r)
        ∧ (∀ e, tGet? (u.tile t).df.table e = if e = j then some { m with state := .running } else tGet? x.df.table e)
        ∧ OthersSame s u t ∧ (u.tile t).pad = x.pad)
    ∧ (∀ e m, tGet? x.df.table e = some m → m.state = .draining → m.desc = 0 → m.rops = 0 →
      ∃ u, exec (.entryRetire t e) s = .next u
        ∧ (∀ j, tGet? (u.tile t).df.table j = if j = e then none else tGet? x.df.table j)
        ∧ u.tile t = { u.tile t with seq := x.seq, istore := x.istore, acts := x.acts, eng := x.eng, rtr := x.rtr }
        ∧ OthersSame s u t
        ∧ ((∀ o ∈ m.ops, ∀ k, o = some k → k.msg = none) →
            u = s.modTile t (·.modDf fun d => { d with table := tDel d.table e })))

/-- A token of the tile's course that the steering unit accepts, its first of this cycle (R70), re-arms MATCH_FULL and waits in the pending buffer where no partner waits; else
the pair leaves the buffer and the target byte that the control value selects delivers the data token under the slot it
names, or discards it (R80). A pending entry that has waited TILE_STEER_WAIT.WAIT stops counting and makes cause 0x0A
pending (R81). A completion token that waited enters the local token buffer, and its descriptor leaves the engine (R69). -/
def Obligations.SteeringUnit : Prop :=
  ∀ (s : State) (t : Nat), t < Config.nTiles →
    let x := s.tile t
    (∀ src r k, x.steerTok src = some (r, k) → x.seq.state ≠ .stopped → x.steerSource = some src →
      x.df.steerAt ≠ some s.now → tagCourse k.tag = x.course →
      let d := x.isData r k
      let rule := x.df.rules.getD r (0, 0)
      (x.df.pend.find? (·.partner r d k.tag) = none → ∃ u, exec (.steerToken t src) s = .next u ∧ OnlyTokens s t u
        ∧ (u.tile t).df.pend = x.df.pend ++ [⟨r, d, k, 0, false⟩] ∧ (u.tile t).df.out = x.df.out
        ∧ (u.tile t).df.steerAt = some s.now ∧ (u.tile t).df.matchFullRaised = false)
      ∧ (∀ p, x.df.pend.find? (·.partner r d k.tag) = some p →
        let data := if d then k else p.tok
        let control := if d then p.tok else k
        let b := steerTarget rule control.value
        ∃ u, exec (.steerToken t src) s = .next u ∧ OthersSame s u t ∧ (u.tile t).seq = x.seq
          ∧ (u.tile t).df.pend = x.df.pend.filter (!·.partner r d k.tag)
          ∧ (u.tile t).df.out = (if 128 ≤ b then x.df.out ++ [{ data with slot := b % 16 }] else x.df.out)
          ∧ (u.tile t).df.table = x.df.table))
    ∧ (∀ n p, x.df.pend[n]? = some p → x.df.steerWait ≤ p.count → p.stopped = false →
      (∀ e ∈ x.seq.pend, e.cause ≠ 0x0A) →
      exec (.steerTimeout t n) s = .next (s.modTile t fun y => { y with
        df := { y.df with pend := y.df.pend.set n { p with stopped := true } }
        seq := { y.seq with pend := y.seq.pend ++ [⟨0x0A, p.tok.tag.zeroExtend 32, 0, p.tok.tag.toNat⟩] } }))
    ∧ (∀ k mat e rest, x.df.comp = (k, mat, e) :: rest → x.bound k.slot = true → x.df.ltb.length < 8 →
      ∃ u, exec (.completionTokenEnter t) s = .next u ∧ (u.tile t).df.comp = rest ∧ (u.tile t).df.ltb = x.df.ltb ++ [k]
        ∧ (u.tile t).eng.mat = (if mat then x.eng.mat.tail else x.eng.mat)
        ∧ (u.tile t).eng.vec = (if mat then x.eng.vec else x.eng.vec.tail)
        ∧ (∀ j m, e = some j → tGet? x.df.table j = some m →
            tGet? (u.tile t).df.table j = some { m with desc := m.desc - 1 })
        ∧ (u.tile t).seq = x.seq ∧ (u.tile t).pad = x.pad ∧ OthersSame s u t)

/-- A course change requested of a RUNNING span with nothing under way begins at once; of a span whose operation runs it
waits its turn; of a span held in reset it is refused (R245). The course command stops the sequencer, makes the tile's
COURSE the next one, and leaves no local, pending or steered token of another course; with the last tile step 2 begins (R83
to R86). Drain reports enter the span's counts. Where the drain ends, a course change writes what it loads into its tiles
and starts every tile that is STOPPED and passes START's checks, the span is RUNNING and CSTEP advances; a host restart that loads waits for START; a capture that is
due holds step 3 (R85, R88, R358, R391, R396). An expired window records the residual (R87). -/
def Obligations.CourseChanges : Prop :=
  ∀ (s : State) (n : Nat) (loads : List TileLoad), n < 4096 →
    let x := s.span n
    (x.state = .running → x.op = none → x.queued = [] → x.owed.all (·.2 = 0) = true → s.mayBegin = true →
      ∃ u, exec (.courseChange ⟨n, loads⟩) s = .next u ∧ (u.span n).state = .changing ∧ (u.span n).queued = []
        ∧ (u.span n).op = some { kind := .course loads, step := 1, at_ := s.time } ∧ (∀ m, m ≠ n → u.span m = s.span m)
        ∧ u.tiles = s.tiles)
    ∧ (x.state = .running ∨ x.state = .changing → x.op ≠ none →
      exec (.courseChange ⟨n, loads⟩) s = .next (s.modSpan n fun x => { x with queued := x.queued ++ [.course loads] }))
    ∧ (x.state = .held ∨ x.state = .resetting ∨ x.state = .placeFail → exec (.courseChange ⟨n, loads⟩) s = .next s)
    ∧ (∀ t o, t < Config.nTiles → s.spanOf t = some n → x.op = some o → o.kind.isCourse = true ∨ o.kind.isRestart = true →
      o.step = 1 → o.abort = false → s.usable t = true → o.acked.contains t = false →
      ∃ u, exec (.courseCommand t) s = .next u
        ∧ (u.tile t).course = ((s.tile t).course + 1) % 4
        ∧ ((s.seq t).wait.blocking = false → (s.seq t).state ≠ .trapped → (u.seq t).state = .stopped)
        ∧ (o.kind.isRestart = true → (u.tile t).held = false)
        ∧ (∀ k, k ∈ (u.tile t).df.ltb ++ (u.tile t).df.out ++ (u.tile t).df.pend.map (·.tok) →
            tagCourse k.tag = ((s.tile t).course + 1) % 4)
        ∧ (u.span n).op = some (if (s.spanTiles n).all (o.acked ++ [t]).contains
            then { o with step := 2, at_ := s.time, acked := [] } else { o with acked := o.acked ++ [t] })
        ∧ OthersSame s u t)
    ∧ (∀ t o, t < Config.nTiles → s.spanOf t = some n → x.op = some o → o.step = 2 → o.hostWait = false →
      (s.tile t).oldWork ≠ 0 ∨ (s.seq t).state = .stopped →
      ∃ u, exec (.drainReport t) s = .next u ∧ u.tiles = s.tiles ∧ (u.span n).op = some { o with
        counts := tPut o.counts t (s.tile t).oldWork
        stopped := if (s.seq t).state = .stopped ∧ o.stopped.contains t = false then o.stopped ++ [t] else o.stopped })
    ∧ (∀ o, x.op = some o → o.step = 2 → o.hostWait = false → o.abort = false → s.mgmt.ksReset = none →
      s.drained n o = true →
      (o.kind = .hostRestart true → exec (.drainEnd n) s = .next ((s.modSpan n fun x => { x with
          residual := 0, owed := [], op := some { o with hostWait := true } }).modStatus fun y =>
          { y with result := 5, cmd := 2, cmdSpan := n }))
      ∧ (o.kind.isCourse = true → s.ckpt.waiting.contains n = true → s.ckpt.deferred = false →
        ∃ u, exec (.drainEnd n) s = .next u ∧ (u.span n).op = some { o with step := 3, capture := true }
          ∧ (u.span n).residual = 0 ∧ u.ckpt.capturing = s.ckpt.capturing ++ [n]
          ∧ u.ckpt.waiting = s.ckpt.waiting.filter (· ≠ n) ∧ u.tiles = s.tiles)
      ∧ (o.kind.isCourse = true → s.ckpt.waiting.contains n = false → x.queued = [] → s.MayServe →
        (∀ t ∈ s.spanTiles n, (s.seq t).state = .stopped ∧ ((s.stepLoad o.kind t).tile t).startFault = none) →
        ∃ u, exec (.drainEnd n) s = .next u ∧ (u.span n).state = .running ∧ (u.span n).op = none
          ∧ (u.span n).residual = 0 ∧ (u.span n).cstep = (x.cstep + 1) % 2 ^ 24
          ∧ ∀ t ∈ s.spanTiles n, (u.seq t).state = .entry ∧ (u.seq t).pc = (s.seq t).entry.zeroExtend 32
            ∧ (u.tile t).istore = ((s.stepLoad o.kind t).tile t).istore
            ∧ (u.tile t).acts = ((s.stepLoad o.kind t).tile t).acts))
    ∧ (∀ o, x.op = some o → o.step = 2 → o.hostWait = false → s.mgmt.ksReset = none → s.drained n o = false → s.MayServe →
      o.at_ + Config.us x.layout.drainUs ≤ s.time →
      ∃ u, exec (.drainWindowExpiry n) s = .next u
        ∧ (u.span n).residual = min 2047 ((s.spanTiles n).map fun t => (s.tile t).oldWork).sum)

/-- A first start puts every tile of the span into course 0 with its held bit clear and the layout's arbitration limit,
starts it or finds its tables at fault; a span with a program on a listed tile is PLACE_FAIL with RCAUSE 5 (R201, R243,
R244). The reset command leaves a tile's compute domain as after reset, the tile held, its store, action table and COURSE
as they were; with the last report the span is HELD (R247, R248). A fault of an idle span starts a reset with its RCAUSE;
of one whose operation runs, the operation ends with its step, at once where no usable tile is left that the step waits
for; a span with no usable tile is HELD at once (R245, R247, R251). The watchdog counts at each millisecond, returns
to 0 after a heartbeat, and at WDOG_MS faults the span with RCAUSE 2 (R252). A restart begins a course change; an automatic one not while a field of the span is dead (R253).
HOST_SPAN_CMD with its key: RESET of a running span starts a reset with RCAUSE 6 and result 1; a command whose span is
in the wrong state has result 2, of no span 4, of a span that cannot be placed 3; RESTART of a held span is queued; START
of a span that waits for it loads and starts it. A word without the key has no effect (R253, R358). -/
def Obligations.SpanLife : Prop :=
  (
    ∀ (s : State) (n : Nat), n < 4096 → s.MayServe →
      let x := s.span n
      let resets := fun (rcause ftile : Nat) (o : Out) => ∃ u, o = .next u ∧ (u.span n).rcause = rcause
        ∧ (u.span n).resets = min 255 (x.resets + 1) ∧ (u.span n).queued = [] ∧ u.tiles = s.tiles
        ∧ (s.spanTiles n ≠ [] → (u.span n).state = .resetting
          ∧ (u.span n).op = some { kind := .reset rcause ftile, step := 1, at_ := s.time })
        ∧ (s.spanTiles n = [] → (u.span n).state = .held ∧ (u.span n).op = none)
      (s.mgmt.st = .glost → x.state = .loading → x.op = none → s.mayBegin = true →
        (s.placementFails n = true → ∃ u, exec (.spanFirstStart n) s = .next u ∧ (u.span n).state = .placeFail
          ∧ (u.span n).rcause = 5 ∧ (∀ t ∈ s.spanTiles n, (u.tile t).held = true))
        ∧ (s.placementFails n = false → ∃ u, exec (.spanFirstStart n) s = .next u
          ∧ ∀ t ∈ s.spanTiles n, (u.tile t).course = 0 ∧ (u.tile t).held = false
            ∧ (u.tile t).rtr.arbWait = x.layout.arb
            ∧ ((s.seq t).state = .stopped → (u.seq t).state = .entry ∨ (u.seq t).actErr = true)))
      ∧ (∀ t o c f, t < Config.nTiles → s.spanOf t = some n → x.op = some o → o.kind = .reset c f → s.usable t = true →
        tGet? o.counts t = none → (∀ p ∈ (s.tile t).pad.held, writeRange p ≠ none) →
        ∃ u, exec (.spanResetCommand t) s = .next u
          ∧ (u.tile t).seq = { entry := (s.seq t).entry, wdogLimit := (s.seq t).wdogLimit }
          ∧ (u.tile t).df = { steerWait := (s.tile t).df.steerWait }
          ∧ (u.tile t).eng = { gate := (s.tile t).eng.gate, gateNew := (s.tile t).eng.gateNew }
          ∧ (u.tile t).pad.sb = [] ∧ (u.tile t).ni.ops = [] ∧ (u.tile t).ni.credits = [] ∧ (u.tile t).ni.stopped = []
          ∧ (u.tile t).held = true ∧ (u.tile t).istore = (s.tile t).istore ∧ (u.tile t).acts = (s.tile t).acts
          ∧ (u.tile t).course = (s.tile t).course ∧ (∀ i, i < 8 → ((u.tile t).queue i).isOpen = false)
          ∧ (u.span n).op = some { o with counts := tPut o.counts t s.now } ∧ OthersSame s u t)
      ∧ (∀ t o c f a, t < Config.nTiles → s.spanOf t = some n → x.op = some o → o.kind = .reset c f →
        tGet? o.counts t = some a → a + 64 ≤ s.now → o.stopped.contains t = false →
        ∃ u, exec (.spanResetReport t) s = .next u
          ∧ ((s.spanTiles n).all (o.stopped ++ [t]).contains = true → (u.span n).state = .held ∧ (u.span n).op = none)
          ∧ ((s.spanTiles n).all (o.stopped ++ [t]).contains = false →
              (u.span n).op = some { o with stopped := o.stopped ++ [t] } ∧ u.tiles = s.tiles))
      ∧ (∀ why c t, s.spanCause n why = some (c, t) → x.state = .running → x.op = none → s.mayBegin = true →
        resets c t (exec (.spanFault n why) s))
      ∧ (∀ why c t o, s.spanCause n why = some (c, t) → x.state = .changing → x.op = some o → o.abort = false →
        o.hostWait = false → o.capture = false → (o.kind.isCourse = true ∧ o.step = 1) ∨ o.kind = .autoRestart ∧ o.step = 4 →
        (∀ t' ∈ s.spanTiles n, o.acked.contains t' = true) → (s.modSpan n fun y => { y with op := none }).mayBegin = true →
        resets c t (exec (.spanFault n why) s))
      ∧ (∀ why c t o, s.spanCause n why = some (c, t) → x.state = .changing → x.op = some o → o.abort = false →
        o.hostWait = false → o.capture = false → (∀ c f, o.kind ≠ .reset c f) →
        o.step = 2 ∨ (∃ t' ∈ s.spanTiles n, o.acked.contains t' = false) → ∃ u, exec (.spanFault n why) s = .next u
          ∧ (u.span n).op = some { o with abort := true } ∧ (u.span n).queued = [.reset c t] ∧ u.tiles = s.tiles)
      ∧ (x.boundary < s.masterMs → exec (.spanWatchdogBoundary n) s = .next (s.modSpan n fun y => { y with
          boundary := s.masterMs, beat := false
          wdog := if s.wdogCounts n then (if y.beat then 0 else y.wdog + 1) else y.wdog }))
      ∧ (s.wdogCounts n = true → x.layout.wdogMs ≤ x.wdog → x.state = .running → x.op = none → s.mayBegin = true →
        resets 2 0 (exec (.spanWatchdogExpiry n) s) ∧ ∃ u, exec (.spanWatchdogExpiry n) s = .next u ∧ (u.span n).wdog = 0)
      ∧ (∀ k, x.restartDue = some k → s.mayBegin = true → (k = .autoRestart → s.placementFails n = false ∧ s.deadField n = false) →
        ∃ u, exec (.spanRestart n) s = .next u ∧ (u.span n).state = .changing ∧ (u.span n).wdog = 0
          ∧ (u.span n).op = some { kind := k, step := 1, at_ := s.time }))
  ∧ (
    ∀ (s : State) (v : BitVec 32),
      let n := bitsW v 0 12
      let x := s.span n
      let result := fun (r : Nat) => s.modStatus fun y => { y with result := r, cmd := bitsW v 12 2, cmdSpan := n }
      (bitsW v 16 16 ≠ 0x59A7 → exec (.hostSpanReset v) s = .next s ∧ exec (.hostSpanRestart v) s = .next s
        ∧ exec (.hostSpanStart v) s = .next s)
      ∧ (bitsW v 16 16 = 0x59A7 →
        (bitsW v 12 2 = 1 →
          (x.state = .unused → exec (.hostSpanReset v) s = .next (result 4))
          ∧ (x.state = .held → exec (.hostSpanReset v) s = .next (result 2))
          ∧ (x.state = .running → x.op = none → x.queued = [] → s.mayBegin = true → s.MayServe →
            ∃ u, exec (.hostSpanReset v) s = .next u ∧ (u.span n).rcause = 6 ∧ u.status.result = 1 ∧ u.tiles = s.tiles
              ∧ (u.span n).state = (if s.spanTiles n = [] then .held else .resetting)))
        ∧ (bitsW v 12 2 = 2 →
          (x.state = .held → x.queued = [] →
            exec (.hostSpanRestart v) s = .next (if s.placementFails n || s.deadField n then result 3
              else (result 1).modSpan n fun y => { y with queued := [.hostRestart (v.getLsbD 15)] }))
          ∧ (x.state = .running → exec (.hostSpanRestart v) s = .next (result 2)))
        ∧ (bitsW v 12 2 = 3 → x.state ≠ .unused →
          (x.op = none → exec (.hostSpanStart v) s = .next (result 2))
          ∧ (∀ o, x.op = some o → o.hostWait = true → o.abort = false → x.queued = [] → s.MayServe →
            (∀ t ∈ s.spanTiles n, (s.seq t).state = .stopped ∧ (s.tile t).startFault = none) →
            o.kind = .hostRestart true →
            ∃ u, exec (.hostSpanStart v) s = .next u ∧ u.status.result = 1 ∧ (u.span n).state = .running
              ∧ ∀ t ∈ s.spanTiles n, (u.seq t).state = .entry))))

/-- The first descriptor of the queue; the gate value holds back all but its fetch (R128). The fetch writes 0 to the completion word and keeps the seven
words; a descriptor that a check of Table 05.3 stops has its completion word written with REJ and the code, and cause 0x0E is
pending (R119, R120). Issue, which judges the scoreboard as it stood when the cycle
began, enters C's range, and B's with CONSB, and inputs 2 and 3 are to read B's rows (R126, R171, R180). When B is latched its consumer entry is gone and the
latch holds B's bytes (R124, R127). At completion C and the completion word are in the scratchpad, the entries are released,
the token is presented and the descriptor leaves (R122, R129). Every other tile is unchanged. -/
def Obligations.MatrixDescriptor : Prop :=
  ∀ (s : State) (t : Nat) (d : Desc) (rest : List Desc), t < Config.nTiles → (s.tile t).eng.mat = d :: rest →
    d.off % 32 = 0 → d.off < 65536 →
    let x := s.tile t
    let p := x.pad
    let v := p.issueView s.now
    let m := mdesc d.words
    let free := !(p.consumerHit (d.off + 28) (d.off + 31))
    (d.phase = .queued → free = true → p.bad d.off 28 = false →
      let ws := (List.range 7).map fun i => p.word (d.off + 4 * i)
      ((mdesc ws).check d.off = 0 → ∃ u, exec (.matrixFetch t) s = .next u
        ∧ (u.tile t).eng.mat = { d with phase := .fetched, words := ws } :: rest
        ∧ (p.bankOn d.off = true → (u.tile t).pad.word (d.off + 28) = 0) ∧ PadSameOutside s u t (d.off + 28) 4
        ∧ (u.tile t).seq = x.seq ∧ OthersSame s u t)
      ∧ ((mdesc ws).check d.off ≠ 0 → (∀ e ∈ x.seq.pend, e.cause ≠ 0x0E) → ∃ u, exec (.matrixFetch t) s = .next u
        ∧ (p.bankOn d.off = true → (u.tile t).pad.word (d.off + 28)
            = BitVec.ofNat 32 (2 ^ 31 + 2 ^ 29 + (mdesc ws).check d.off * 2 ^ 23))
        ∧ PadSameOutside s u t (d.off + 28) 4
        ∧ (u.seq t).pend = x.seq.pend ++ [⟨0x0E, BitVec.ofNat 32 d.off, 0, 0⟩]
        ∧ ((mdesc ws).cslotEn = false → (u.tile t).eng.mat = rest) ∧ OthersSame s u t))
    ∧ (d.phase = .fetched → x.eng.gate ≠ 0 →
      (∀ rs ∈ [m.aRuns, m.asRuns, m.assRuns, m.metaRuns, m.bRuns, m.bsRuns], v.blocked rs = false) →
      (m.acc = true → v.blocked m.cRuns = false) → v.sb.length + (if m.consB then 2 else 1) ≤ 16 →
      ∃ u j, exec (.matrixIssue t) s = .next u ∧ tGet? v.sb j = none
        ∧ tGet [] (u.tile t).pad.stream 2 = m.bStreams.1 ∧ tGet [] (u.tile t).pad.stream 3 = m.bStreams.2
        ∧ (∀ c, hull m.cRuns = some c → tGet? (u.tile t).pad.sb j = some ⟨false, 0, c.1, c.2, 0⟩)
        ∧ (m.consB = false → (u.tile t).eng.mat = { d with phase := .issued, entries := [j], cons := [] } :: rest)
        ∧ (m.consB = true → ∃ k, k ≠ j ∧ tGet? v.sb k = none
          ∧ (u.tile t).eng.mat = { d with phase := .issued, entries := [j], cons := [(k, 0)] } :: rest
          ∧ (∀ b, hull (m.bRuns ++ m.bsRuns) = some b → tGet? (u.tile t).pad.sb k = some ⟨true, 0, b.1, b.2, 0⟩))
        ∧ u = s.modTile t fun y => { y with
            pad := { y.pad with sb := (u.tile t).pad.sb, stream := (u.tile t).pad.stream }, eng := { y.eng with mat := (u.tile t).eng.mat } })
    ∧ (d.phase = .issued → x.eng.gate ≠ 0 → ∃ u e, exec (.matrixBLatched t) s = .next u ∧ (u.tile t).eng.mat = e :: rest
        ∧ e.phase = .latched ∧ e.cons = []
        ∧ (∀ r ∈ m.bRuns ++ m.bsRuns, ∀ j, j < r.2 → mRead 0 (u.tile t).eng.latch (r.1 + j) = p.read (r.1 + j))
        ∧ (∀ k ∈ d.cons, tGet? (u.tile t).pad.sb k.1 = none) ∧ OthersSame s u t)
    ∧ (d.phase = .latched → x.eng.gate ≠ 0 → free = true → (∀ c, hull m.cRuns = some c → p.consumerHit c.1 c.2 = false) →
      hull m.cRuns ≠ none →
      let cols := m.result (padView p) (latchView x.eng)
      ∃ u w, exec (.matrixComplete t) s = .next u ∧ w.getLsbD 31 = true ∧ w.getLsbD 29 = false
        ∧ (w.setWidth 6 : BitVec 6) = cols.foldl (fun f k => f ||| k.2.2) 0
        ∧ (u.tile t).pad.mem = ((cols.foldl (fun q k => q.write k.1 k.2.1) p).write (d.off + 28) (leBytes 4 w.toNat)).mem
        ∧ (∀ k ∈ d.entries, tGet? (u.tile t).pad.sb k = none)
        ∧ (m.cslotEn = false → (u.tile t).eng.mat = rest)
        ∧ (m.cslotEn = true → x.bound m.cslot = true → x.df.ltb.length < 8 → (u.tile t).eng.mat = rest
          ∧ (u.tile t).df.ltb = x.df.ltb ++ [⟨m.cslot, d.tag, if m.cval then w else BitVec.ofNat 32 d.off, none⟩])
        ∧ (u.tile t).seq = x.seq ∧ OthersSame s u t)

/-- The gate value that the Kiln holds for the tile's span, 64 for a tile of no span and 0 at a stop, waits when it arrives
(no other value is sent), and takes effect at the next window boundary, every 64 cycles from the field's fabric reset
(R128). A power-down switches off each bank named that has no outstanding write, whose bytes then read 0, refuses the others
and replies; the other banks keep their bytes (R189, R190). A power-up switches on and clears, and replies at once where
every bank named is on already; the reply to a clearing follows when its 1,088 cycles have run (R192). A refused power-down that is due is repeated
(R305).
A decision on requests that Table 08.2 admits, where both engines want input 4 that of the engine not served last, and of
inputs 1 to 3 for the next row of their streams: it grants only requests presented, at most one a bank, two reads and one
write; a request not granted found its bank or the slots of its kind taken; the forced request of the lowest number is
granted; a granted input's counter returns to 0, a refused one advances up to the limit, the others stay; a stream read moves to its next row; a withdrawn grant
leaves its bank idle, and the counters as the decision left them (R171, R173 to R176). -/
def Obligations.GatesAndBanks : Prop :=
  (
    ∀ (s : State) (t : Nat), t < Config.nTiles →
      let p := (s.tile t).pad
      exec (.gateValueCommand t (s.gateFor t)) s
          = .next (s.modTile t (·.modEng fun e => { e with gateNew := some (s.gateFor t) }))
      ∧ (∀ l, l ≠ s.gateFor t → exec (.gateValueCommand t l) s = .next s)
      ∧ (∀ l, s.timer t % 64 = 0 → (s.tile t).eng.gateNew = some l →
        exec (.gateWindow t) s = .next (s.modTile t (·.modEng fun e => { e with gate := l, gateNew := none })))
      ∧ (∀ banks : BitVec 8, ∃ u, exec (.bankPowerDown t banks) s = .next u ∧ OthersSame s u t
        ∧ (u.tile t).seq = (s.tile t).seq
        ∧ (∀ b, b < 8 → (u.tile t).pad.on.getLsbD b
            = (p.on.getLsbD b && !(banks.getLsbD b && decide ((s.tile t).outWrites b = 0))))
        ∧ (∀ a, a < 65536 → (u.tile t).pad.read a
            = if banks.getLsbD (bankOf a) ∧ (s.tile t).outWrites (bankOf a) = 0 then 0 else p.read a)
        ∧ ∃ r, (u.tile t).pad.replies = p.replies ++ [r])
      ∧ (∀ banks : BitVec 8, ∃ u, exec (.bankPowerUp t banks) s = .next u ∧ OthersSame s u t
        ∧ (u.tile t).pad.on = p.on ||| banks ∧ (u.tile t).pad.mem = p.mem
        ∧ (∀ b, b < 8 → banks.getLsbD b = true → p.on.getLsbD b = false → tGet? (u.tile t).pad.clearing b = some s.now)
        ∧ (p.on ||| banks ≠ p.on → banks ∈ (u.tile t).pad.ups)
        ∧ (p.on ||| banks = p.on → p.ups = [] → (∀ e ∈ p.clearing, banks.getLsbD e.1 = false) →
            (u.tile t).pad.replies = p.replies ++ [bankReply banks 0 p.on] ∧ (u.tile t).pad.clearing = p.clearing))
      ∧ (let ends := fun (e : Nat × Nat) => decide (e.2 + 1088 ≤ s.now)
        ∃ u, exec (.bankClearDone t) s = .next u ∧ (u.tile t).pad.clearing = p.clearing.filter (fun e => !ends e)
          ∧ (∀ m ∈ p.ups, (∀ e ∈ p.clearing, m.getLsbD e.1 = true → ends e = true) →
              bankReply (m &&& p.on) 0 p.on ∈ (u.tile t).pad.replies)
          ∧ (∀ m ∈ p.ups, (∃ e ∈ p.clearing, m.getLsbD e.1 = true ∧ ends e = false) → m ∈ (u.tile t).pad.ups)
          ∧ u = s.modTile t (·.modPad fun q => { q with
              clearing := (u.tile t).pad.clearing, ups := (u.tile t).pad.ups, replies := (u.tile t).pad.replies }))
      ∧ (∀ n, n < 4096 →
        let due := fun (e : Nat × BitVec 8 × Nat × Nat) => decide (e.2.2.2 + Config.ms 1 ≤ s.time)
        let all := (s.span n).bankRetry
        ((all.filter due).map (·.1)).Nodup → ∃ u, exec (.bankPowerRetry n) s = .next u
          ∧ (∀ e ∈ all, due e = false → e ∈ (u.span n).bankRetry)
          ∧ ∀ e ∈ all, due e = true → ∃ r, (u.tile e.1).pad.replies = (s.tile e.1).pad.replies ++ [r]))
  ∧ (
    ∀ (s : State) (t : Nat) (reqs : List BankReq), t < Config.nTiles →
      let limit := (s.tile t).rtr.arbWait
      let p := (s.tile t).pad
      let wait := p.wait
      let rs := p.presented reqs
      p.reqsFit rs = true → ∃ u, exec (.bankPortArbitration t reqs []) s = .next u
        ∧ (let gs := (u.tile t).pad.granted
          (∀ g ∈ gs, g ∈ rs) ∧ (gs.map (·.bank)).Nodup ∧ (gs.filter (·.write)).length ≤ 1
          ∧ (gs.filter fun g => !g.write).length ≤ 2
          ∧ (∀ r ∈ rs, r ∉ gs → (∃ g ∈ gs, g.bank = r.bank) ∨ (r.write = true ∧ (gs.filter (·.write)).length = 1)
              ∨ (r.write = false ∧ (gs.filter fun g => !g.write).length = 2))
          ∧ (∀ r ∈ rs, limit ≤ tGet 0 wait r.input → (∀ q ∈ rs, limit ≤ tGet 0 wait q.input → r.input ≤ q.input) → r ∈ gs)
          ∧ (∀ r ∈ rs, tGet 0 (u.tile t).pad.wait r.input = if r ∈ gs then 0 else min limit (tGet 0 wait r.input + 1))
          ∧ (∀ i, (∀ r ∈ rs, r.input ≠ i) → tGet 0 (u.tile t).pad.wait i = tGet 0 wait i)
          ∧ (∀ i, 1 ≤ i → i ≤ 3 → tGet [] (u.tile t).pad.stream i
              = if gs.any (·.input = i) then (tGet [] p.stream i).tail else tGet [] p.stream i)
          ∧ (∀ g ∈ gs, g.input = 4 → (u.tile t).pad.lastVec = g.vec)
          ∧ (let v := (u.tile t).pad
            u = s.modTile t (·.modPad fun q =>
              { q with wait := v.wait, granted := gs, stream := v.stream, lastVec := v.lastVec }))
          ∧ ∀ w, ∃ u', exec (.bankPortArbitration t reqs w) s = .next u'
              ∧ (u'.tile t).pad.granted = (gs.filter fun g => !w.contains g.input)
              ∧ (u'.tile t).pad.wait = (u.tile t).pad.wait
              ∧ (let v := (u'.tile t).pad
                v = { (u.tile t).pad with granted := v.granted, stream := v.stream, lastVec := v.lastVec })))
    ∧ (∀ (p : Pad) (reqs : List BankReq), (∃ r ∈ reqs, r.input = 4 ∧ r.vec = true) → (∃ r ∈ reqs, r.input = 4 ∧ r.vec = false) →
        ∀ r, r ∈ p.presented reqs ↔ r ∈ reqs ∧ (r.input = 4 → r.vec ≠ p.lastVec))

/-- A write to TILE_WDOG stores the value, or the nearer end of 1,024 to 2,147,483,648 where it lies outside (R63). -/
def Obligations.WatchdogLimitClamped : Prop :=
  ∀ (s : State) (t : Nat) (v : Word), t < Config.nTiles → ∃ u,
    exec (.registerWrite (.tile t 0x0C false) v) s = .next u
      ∧ (u.seq t).wdogLimit = (if v.toNat < 1024 then 1024 else if 2147483648 < v.toNat then 2147483648 else v.toNat)

/-- A write to TILE_STEER_WAIT stores WAIT, the low 25 bits, or the nearer end of 256 to 16,777,216 where it lies outside
(R82). -/
def Obligations.SteerWaitClamped : Prop :=
  ∀ (s : State) (t : Nat) (v : Word), t < Config.nTiles →
    let w := v.toNat % 2 ^ 25
    ∃ u, exec (.registerWrite (.tile t 0x30 false) v) s = .next u
      ∧ (u.tile t).df.steerWait = (if w < 256 then 256 else if 16777216 < w then 16777216 else w)

/-- The first descriptor of the vector queue; the gate value holds back all but its fetch (R128). The fetch writes 0 to the completion word and keeps the
descriptor, its program and its compressor's words; a failed check writes the completion word with REJ and the code and
makes cause 0x0E pending (R141). Issue, which judges the scoreboard as it stood when
the cycle began, enters each output range and each CONS range, and input 1 is to read the rows (R142, R171, R180). The first release or the
completion runs the elements. A CONS entry or an output entry is released by its number, an output's bytes landing first and in order
with the results before them (R182).
At completion the remaining results and the completion word land, the entries go, SM0 to SM3, SMTAG and SMFLG take the
summaries where they were asked for, and the descriptor leaves (R39, R140, R164). -/
def Obligations.VectorDescriptor : Prop :=
  ∀ (s : State) (t : Nat) (e : Desc) (rest : List Desc), t < Config.nTiles → (s.tile t).eng.vec = e :: rest →
    e.off % 32 = 0 → e.off + 64 ≤ 65536 →
    let x := s.tile t
    let p := x.pad
    let v := p.issueView s.now
    let words := fun a n => (List.range n).map fun i => p.word (a + 4 * i)
    (e.phase = .queued → p.consumerHit (e.off + 60) (e.off + 63) = false → p.bad e.off 60 = false →
      let d := vdesc (words e.off 15)
      let prog := words d.prog d.pl
      let badProg := (List.range d.pl).filter fun i => p.bad (d.prog + 4 * i) 4
      let n := cdescWords (bitsW (p.word d.compOff) 8 4)
      let comp := if d.compEn then words d.compOff n else []
      (d.check e.off prog badProg = 0 →
        (d.compEn = true → p.bad d.compOff (4 * n) = false ∧ (cdesc comp).bad comp d e.off (padView p) = false) →
        ∃ u, exec (.vectorFetch t) s = .next u
          ∧ (u.tile t).eng.vec = { e with phase := .fetched, words := words e.off 15, prog := prog, comp := comp,
                                          badProg := badProg, ecc := !badProg.isEmpty } :: rest
          ∧ (p.bankOn (e.off + 60) = true → (u.tile t).pad.word (e.off + 60) = 0) ∧ PadSameOutside s u t (e.off + 60) 4
          ∧ (u.tile t).seq = x.seq ∧ OthersSame s u t)
      ∧ (d.check e.off prog badProg ≠ 0 → (∀ c ∈ x.seq.pend, c.cause ≠ 0x0E) → ∃ u, exec (.vectorFetch t) s = .next u
          ∧ (p.bankOn (e.off + 60) = true → (u.tile t).pad.word (e.off + 60)
              = complWord (!badProg.isEmpty) true false (d.check e.off prog badProg) 0)
          ∧ PadSameOutside s u t (e.off + 60) 4
          ∧ (u.seq t).pend = x.seq.pend ++ [⟨0x0E, BitVec.ofNat 32 e.off, 0, 0⟩] ∧ OthersSame s u t))
    ∧ (let d := vdesc e.words
      let ins := d.ranges d.readSlot
      let outs := d.ranges d.written
      let cons := ins.filter fun r => (d.slot r.1).isIn && (d.slot r.1).cons
      let regions := e.compOuts d
      e.phase = .fetched → x.eng.gate ≠ 0 → (∀ r ∈ ins, v.writePending r.2.1 r.2.2 = false) →
      v.blocked [(d.prog, 4 * d.pl)] = false → v.blocked (e.compIns d (padView p)) = false → v.sb.length + (outs.length + regions.length + cons.length) ≤ 16 →
      ∃ u e', exec (.vectorIssue t) s = .next u ∧ (u.tile t).eng.vec = e' :: rest ∧ e'.phase = .issued
        ∧ e'.words = e.words ∧ e'.entries.length = outs.length + regions.length ∧ e'.cons.length = cons.length
        ∧ tGet [] (u.tile t).pad.stream 1 = runRows (d.streamRuns ++ e.compIns d (padView p))
        ∧ (∀ r ∈ outs, ∃ k ∈ e'.entries, tGet? (u.tile t).pad.sb k = some ⟨false, 1, r.2.1, r.2.2, 0⟩)
        ∧ (∀ r ∈ cons, ∃ k, (k, r.1) ∈ e'.cons ∧ tGet? (u.tile t).pad.sb k = some ⟨true, 1, r.2.1, r.2.2, 0⟩)
        ∧ u = s.modTile t fun y => { y with
            pad := { y.pad with sb := (u.tile t).pad.sb, stream := (u.tile t).pad.stream }, eng := { y.eng with vec := (u.tile t).eng.vec } })
    ∧ (e.phase = .issued → x.eng.gate ≠ 0 → ∀ id,
        exec (.vectorConsumerRelease t id) s = exec (.vectorConsumerRelease t id) (s.runVec t)
        ∧ exec (.vectorComplete t) s = exec (.vectorComplete t) (s.runVec t)
        ∧ (let d := vdesc e.words
          let r := d.run (d.vrows (padView p) (program e.prog e.badProg))
          ∃ e' rest', ((s.runVec t).tile t).eng.vec = e' :: rest' ∧ e'.phase = .latched ∧ e'.sums = d.summaries r
            ∧ e'.flags = r.fl ∧ e'.cons = e.cons ∧ e'.entries = e.entries))
    ∧ (∀ id, e.phase = .latched → x.eng.gate ≠ 0 → e.cons.any (·.1 = id) = true → ∃ u, exec (.vectorConsumerRelease t id) s = .next u
        ∧ (u.tile t).eng.vec = { e with cons := e.cons.filter (·.1 ≠ id) } :: rest
        ∧ tGet? (u.tile t).pad.sb id = none ∧ OthersSame s u t)
    ∧ (∀ id, e.phase = .latched → x.eng.gate ≠ 0 → e.cons.any (·.1 = id) = false → e.entries.contains id = true →
        e.heldBy p (e.upTo id) = false → ∃ u, exec (.vectorConsumerRelease t id) s = .next u
        ∧ (u.tile t).eng.vec = { e with entries := e.entries.filter (· ≠ id), writes := e.writes.drop (e.upTo id).length } :: rest
        ∧ tGet? (u.tile t).pad.sb id = none ∧ OthersSame s u t
        ∧ (p.held = [] → (u.tile t).pad.mem
            = ((e.upTo id).foldl (fun q w => q.write w.2.1 w.2.2) p).mem))
    ∧ (e.phase = .latched → x.eng.gate ≠ 0 → e.out = [] → e.rops = 0 → e.heldBy p (e.writes ++ [(0, e.off + 60, [0, 0, 0, 0])]) = false →
        let d := vdesc e.words
        let w := complWord e.ecc false e.spx 0 e.flags
        ∃ u, exec (.vectorComplete t) s = .next u
          ∧ (u.seq t).sm = (if d.sumEn then e.sums else x.seq.sm)
          ∧ (u.seq t).smTag = (if d.sumEn then e.tag else x.seq.smTag)
          ∧ (u.seq t).smFlg = (if d.sumEn then e.flags else x.seq.smFlg)
          ∧ (∀ k, k ∈ e.entries ++ e.cons.map (·.1) → tGet? (u.tile t).pad.sb k = none)
          ∧ (p.held = [] → (u.tile t).pad.mem = ((e.writes.foldl (fun q w => q.write w.2.1 w.2.2) p).write (e.off + 60)
              (leBytes 4 w.toNat)).mem)
          ∧ (d.cslotEn = false → (u.tile t).eng.vec = rest) ∧ OthersSame s u t)

/-- ROUTER_FORWARD takes the first packet of a channel that waits at a port, the tile's own where its buffer has room, and
queues it for the outputs that its route names; a packet of a kind that never enters a mesh is discarded and counted
(R217); a REDUCE packet that matches the one in its output's combine slot is combined with it, and the sum then asks for the
output (R211, R212); where no route reaches the destination, a request is answered UNREACHABLE
and an answer counted (R195, R204, R208). ROUTER_ARBITRATION grants, of the heads with credit, the lowest forced one or else
the highest; the granted packet leaves, to the interface or on the wire, its counter returns to 0 and the others advance
(R175, R199). A withdrawn grant leaves the packet, the output idle and the counters advanced (R200). -/
def Obligations.RouterForwards : Prop :=
  ∀ (s : State) (t : Nat), t < Config.nTiles →
    let x := s.tile t
    (∀ vc p, firstOn vc x.ni.inj = some p → x.rtr.held 0 vc + p.flits ≤ 12 →
      let plain := p.op.pierOnly = false
      let s1 := s.modTile t (·.modNi fun n => { n with inj := dropPacket p n.inj })
      (p.op.pierOnly = true → exec (.routerForward t 0 vc) s = .next (s1.modTile t (·.count cAnsDisc 1)))
      ∧ (∀ outs q, s.hop t 0 p = .out outs q → plain → q.op ≠ .putReduce ∨ q.reduce = false → outs ≠ [] →
        exec (.routerForward t 0 vc) s = .next (s1.modTile t (·.modRtr fun r =>
          r.setBuf 0 q.vc (r.buf 0 q.vc ++ [⟨q, outs, s.now⟩]))))
      ∧ (∀ o q c, s.hop t 0 p = .out [o] q → plain → q.op = .putReduce → q.reduce = true → tGet? x.rtr.comb o = some c →
        mayCombine c.pkt q c.port 0 = true → ∃ u k, exec (.routerForward t 0 vc) s = .next u
          ∧ tGet? (u.tile t).rtr.comb o = some { c with pkt := k, ready := true }
          ∧ k.contribs.length = c.pkt.contribs.length + q.contribs.length ∧ k.data = (s.combine c.pkt q c.at_ c.port 0).data
          ∧ (u.tile t).rtr.bufs = x.rtr.bufs ∧ OthersSame s u t)
      ∧ (∀ q, s.hop t 0 p = .unreachable q → plain → q.vc = 0 →
        exec (.routerForward t 0 vc) s = .next (s1.answer t q .unreachable))
      ∧ (∀ q, s.hop t 0 p = .unreachable q → plain → q.vc = 1 →
        exec (.routerForward t 0 vc) s = .next (s1.modTile t (·.count cAnsDisc 1))))
    ∧ (∀ i d u vc p, portDir i = some d → neighbour t d = some u →
      firstOn vc ((s.tile u).rtr.wireTo d.opposite.port) = some p → p.op.pierOnly = false →
      ∀ outs q, s.hop t i p = .out outs q → q.op ≠ .putReduce ∨ q.reduce = false → outs ≠ [] →
      ∃ v, exec (.routerForward t i vc) s = .next v ∧ (v.tile t).rtr.buf i q.vc = x.rtr.buf i q.vc ++ [⟨q, outs, s.now⟩]
        ∧ (v.tile u).rtr.wireTo d.opposite.port = dropPacket p ((s.tile u).rtr.wireTo d.opposite.port)
        ∧ (∀ w, w ≠ t → w ≠ u → v.tile w = s.tile w))
    ∧ (∀ o, o < 5 → (∀ d, portDir o = some d → s.blockedDir t d = false) → s.requests t o ≠ [] →
      let ns := s.requests t o
      let count := fun n => tGet 0 x.rtr.wait (20 * o + n)
      ∃ n p u, exec (.routerArbitration t o false) s = .next u ∧ n ∈ ns ∧ s.asks t o n = some p ∧ s.credit t o p = true
        ∧ ((∃ m ∈ ns, x.rtr.arbWait ≤ count m) → x.rtr.arbWait ≤ count n
            ∧ ∀ m ∈ ns, x.rtr.arbWait ≤ count m → n ≤ m)
        ∧ ((∀ m ∈ ns, count m < x.rtr.arbWait) → ∀ m ∈ ns, m ≤ n)
        ∧ (∀ m ∈ ns, tGet 0 (u.tile t).rtr.wait (20 * o + m) = if m = n then 0 else min x.rtr.arbWait (count m + 1))
        ∧ (o = 0 → (u.tile t).ni.inbox = x.ni.inbox ++ [p])
        ∧ (o ≠ 0 → (u.tile t).rtr.wireTo o = x.rtr.wireTo o ++ [p]) ∧ OthersSame s u t
        ∧ (n % 5 = 0 → p.vc ≠ 1 → s.resetComing t = true → ∃ v, exec (.routerArbitration t o true) s = .next v
            ∧ (v.tile t).rtr.wait = (u.tile t).rtr.wait ∧ (v.tile t).rtr.bufs = x.rtr.bufs
            ∧ o ∈ (v.tile t).rtr.idleOut ∧ (v.tile t).ni = x.ni ∧ (v.tile t).rtr.wire = x.rtr.wire))

/-- The target is WAYPOINT where WPV is 1, else DEST. A packet that is no broadcast goes toward it by an output that is not
blocked: east or west while x differs, then north or south; at the target a waypoint is left behind and the packet goes on
toward DEST, where it leaves by the local port, or by the outward port where OUT is 1 (R204; blocked outputs are R208's).
Each hop comes one tile closer, and only at the target is there no further direction. -/
def Obligations.RoutingApproaches : Prop :=
  (∀ (s : State) (t i : Nat) (p : Packet), ¬ (p.bcast = true ∧ p.vc = 3) →
    let goes := fun (q : Packet) (u : Nat) =>
      let by_ := fun (d : Dir) => s.blockedDir t d = false → s.hop t i p = .out [d.port] q
      (tileX t < tileX u → by_ .east) ∧ (tileX u < tileX t → by_ .west)
        ∧ (tileX t = tileX u → tileY t < tileY u → by_ .north) ∧ (tileX t = tileX u → tileY u < tileY t → by_ .south)
    let home := fun (q : Packet) => t = p.dest →
      (p.out = false → s.hop t i p = .out [0] q)
      ∧ (p.out = true → ∀ d, outDir t = some d → s.blockedDir t d = false → s.hop t i p = .out [d.port] q)
    (p.wpv = true → goes p p.waypoint
      ∧ (t = p.waypoint → goes { p with wpv := false } p.dest ∧ home { p with wpv := false }))
    ∧ (p.wpv = false → goes p p.dest ∧ home p))
  ∧ (∀ t u : Nat, t < Config.nTiles → u < Config.nTiles →
    let far := fun (a b : Nat) => (tileX a - tileX b) + (tileX b - tileX a) + (tileY a - tileY b) + (tileY b - tileY a)
    (toward t u = none ↔ t = u)
    ∧ ∀ d, toward t u = some d → ∃ v, neighbour t d = some v ∧ v < Config.nTiles ∧ far v u + 1 = far t u
      ∧ ((d = .north ∨ d = .south) → tileX t = tileX u))

/-- A packet held 8 cycles in a combine slot asks for its output, for the port it came by (R212). A flit error is a retry, counted;
the third failure in a row, or the seventeenth retry within 1,048,576 cycles, makes the link dead at both ends and reports it
(R197). An idle check that is due and passes clears the failures (R377). A configuration write sets what it names, and the
write of a table of the change under way is acknowledged (R205 to R209). A route change whose tables hold R445's bounds writes the link-state
bits, turns traffic away at the borders of what was listed since the last one, and begins with the next epoch; once every usable
router has acknowledged, the interfaces take that epoch and choose attachment tiles by the map it carries out (R210, R347,
R380, R446). The three words of a table entry, and the eight of a head flit, give back the fields they carry (Tables 09.1,
09.6 and 10.2; R196, R207, R216). -/
def Obligations.MeshUpkeep : Prop :=
  ∀ (s : State) (t : Nat), t < Config.nTiles →
    let x := s.tile t
    (∀ o c, tGet? x.rtr.comb o = some c → c.at_ + 8 ≤ s.now →
      ∃ u, exec (.combineSlotTimeout t o) s = .next u
        ∧ u = s.modTile t (·.modRtr fun r => { r with comb := tPut r.comb o { c with ready := true } })
        ∧ (c.port < 5 → c.port ≠ o → u.asks t o (c.port + 5) = some c.pkt))
    ∧ (∀ d : Dir, hasLink t d = true → x.rtr.dead.getLsbD d.code = false → s.crossing t d ≠ [] →
      let recent := (tGet [] x.rtr.retries d.code).filter fun c => s.now < c + 1048576
      (tGet 0 x.rtr.fails d.code < 2 → recent.length < 16 →
        exec (.linkRetry t d) s = .next (s.modTile t fun y => (y.modRtr fun r => { r with
          fails := tPut r.fails d.code (tGet 0 x.rtr.fails d.code + 1)
          retries := tPut r.retries d.code (recent ++ [s.now]) }).count cRetries 1))
      ∧ (2 ≤ tGet 0 x.rtr.fails d.code ∨ 16 ≤ recent.length → ∃ u, exec (.linkRetry t d) s = .next u
        ∧ (u.tile t).rtr.dead.getLsbD d.code = true
        ∧ (∀ v, neighbour t d = some v → (u.tile v).rtr.dead.getLsbD d.opposite.code = true)
        ∧ u.routes.deadLinks = s.routes.deadLinks ++ [(t, d)] ∧ ∀ y, (u.tile y).pad = (s.tile y).pad))
    ∧ (∀ (d : Dir) v, neighbour t d = some v → x.rtr.dead.getLsbD d.code = false →
      tGet 0 x.rtr.lastUse d.code + 1024 ≤ s.now →
      ∃ u, exec (.idleCheck t d true) s = .next u ∧ tGet 0 (u.tile v).rtr.fails d.opposite.code = 0
        ∧ tGet 0 (u.tile t).rtr.lastUse d.code = s.now ∧ ∀ w, w ≠ t → w ≠ v → u.tile w = s.tile w)
    ∧ (∀ c, ∃ u, exec (.routerConfigWrite t c) s = .next u ∧ OthersSame s u t ∧ u.tile t = x.modRtr (·.config c)
      ∧ (∀ es e ch, c = .tables es e → s.routes.change = some ch → e % 4 = ch.epoch → es = ch.tableOf t x.rtr →
          s.usable t = true →
          ch.acked.contains t = false → u.routes.change = some { ch with acked := ch.acked ++ [t] }))
    ∧ (∀ marks tables, s.routes.change = none → s.mgmt.ksReset = none → s.routes.fold = true →
      (∀ m ∈ marks, m.1 < Config.nTiles) → (∀ m ∈ tables, m.1 < Config.nTiles ∧ m.2.length ≤ 32) →
      (marks.map (·.1)).Nodup → ((s.changeMarked marks tables).withTables tables).routesHold = true →
      ∃ u, exec (.routeChange marks tables) s = .next u
        ∧ u.routes.change = some ⟨tables, [], (s.routes.epoch + 1) % 4, [], s.map.recs⟩ ∧ u.routes.fold = false
        ∧ u.routes.epoch = s.routes.epoch ∧ u.routes.recs = s.routes.recs
        ∧ (∀ v, u.tile v = (s.tile v).modRtr fun r => { r with blocked := (u.tile v).rtr.blocked })
        ∧ (∀ m ∈ marks, m.2 ||| (u.tile m.1).rtr.blocked = (u.tile m.1).rtr.blocked)
        ∧ (∀ v, v ∉ marks.map (·.1) → (s.tile v).rtr.blocked ||| (u.tile v).rtr.blocked = (u.tile v).rtr.blocked)
        ∧ (∀ r ∈ s.map.recs, r ∉ s.routes.recs → ∀ v ph c, r = .tile v ph c → ∀ d w, neighbour v d = some w →
            (u.tile w).rtr.blocked.getLsbD d.opposite.code = true))
    ∧ (∀ ch, s.routes.change = some ch → s.map.usable ≤ ch.acked.length → ∃ u, exec .routeTablesAcked s = .next u
      ∧ u.routes.epoch = ch.epoch ∧ u.routes.change = none ∧ u.routes.recs = ch.recs ∧ u.tiles = s.tiles
      ∧ (ch.pairs = [] → u.vdt = s.vdt))
    ∧ (∀ e : DetourEntry, e.xLo < 1024 → e.xHi < 1024 → e.yLo < 2048 → e.yHi < 2048 → e.waypoint < 2 ^ 21 →
      ∃ a b c, e.words = [a, b, c] ∧ readDetour a b c = e)
    ∧ (∀ p : Packet, p.sized = true → p.rsv = 0 →
      let q := readHead fun i => p.head.getD i 0
      p.head.length = 8 ∧ (∀ w ∈ p.head, w < 2 ^ 32)
      ∧ q.op = p.op ∧ q.dest = p.dest ∧ q.vc = p.vc ∧ q.reduce = p.reduce ∧ q.bcast = p.bcast ∧ q.out = p.out
      ∧ q.flits = p.flits ∧ q.rtEpoch = p.rtEpoch ∧ q.waypoint = p.waypoint ∧ q.wpv = p.wpv ∧ q.dcnt = p.dcnt
      ∧ q.rfmt = p.rfmt ∧ q.flags = p.flags ∧ q.opid = p.opid ∧ q.srcTile = p.srcTile ∧ q.srcEng = p.srcEng
      ∧ (p.op.isResp = false → q.sub = p.sub ∧ q.span = p.span ∧ q.srcKind = p.srcKind ∧ q.tag = p.tag
          ∧ (p.op.isCredit = false → q.addr = p.addr))
      ∧ (p.op.isResp = true → p.op ≠ .creditGrant → q.old = p.old)
      ∧ (p.op.isCredit = true → q.slots = p.slots ∧ q.queue = p.queue ∧ q.gen = p.gen))

/-- A request that heads its channel at the interface of a tile not held in reset, on banks that are on, over no consumer
entry. PUT writes its bytes and no other; GET returns the bytes; ATOMIC writes the function of the old value and its
operands and answers the old value; SIGNAL adds 1 to its word (R169, R214). Each takes the packet from the interface and
answers its sender OK, the tile's own answer straight to its own interface. A space-1 access is performed at a held tile too
where it is a Keystone's over VC3 (R62, Table 11.4). An operation that R215 refuses is answered ADDRESS_FAULT with nothing performed; one that meets a
consumer entry is held (R182); one at a tile held in reset is answered SPAN_RESET (R248). -/
def Obligations.RequestsArePerformed : Prop :=
  ∀ (s : State) (t : Nat) (p : Packet), t < Config.nTiles → (p.srcKind ≠ 0 ∨ p.srcEng = s.mgmt.engId) →
    let x := s.tile t
    let a := addrOff p.addr
    let n := reqLen p
    let e := s.mgmt.engId
    let s1 := s.modTile t (·.modNi fun k => { k with inbox := dropPacket p k.inbox })
    let sends_ := fun (q : Packet) (u : State) =>
      (if q.dest = t ∧ q.out = false then (u.tile t).ni.inj = x.ni.inj
          ∧ (u.tile t).ni.inbox = dropPacket p x.ni.inbox ++ [{ q with rtEpoch := s.routes.epoch }]
        else (u.tile t).ni.inj = x.ni.inj ++ [{ q with rtEpoch := s.routes.epoch }]
          ∧ (u.tile t).ni.inbox = dropPacket p x.ni.inbox)
        ∧ (u.tile t).seq = x.seq ∧ OthersSame s u t
    let here := firstOn p.vc x.ni.inbox = some p ∧ firstOn p.vc x.pad.held = none
    let lands := s.isHeld t = false ∧ x.pad.holds p = false ∧ spaceOf p.addr ≠ 1 ∧ s.padFault t p = false
      ∧ x.pad.anyOff a n = false ∧ x.pad.bad a n = false
    here →
    (lands →
      (p.op = .put → p.data.length = p.len → ∃ u, exec (.putArrive (.tile t) p) s = .next u
        ∧ sends_ (respTo e t p p.srcTile p.srcEng .ok 0) u ∧ PadSameOutside s u t a n
        ∧ ∀ j b, p.data[j]? = some b → (u.tile t).pad.read (a + j) = b)
      ∧ (p.op = .get → ∃ u, exec (.getArrive (.tile t) p) s = .next u
        ∧ sends_ (getResp e t p (x.pad.bytes a n)) u ∧ (u.tile t).pad = x.pad)
      ∧ (p.op = .atomic → ∃ u, exec (.atomicArrive (.tile t) p) s = .next u
        ∧ (let old := BitVec.ofNat 64 (leNat (x.pad.bytes a n))
          sends_ (respTo e t p p.srcTile p.srcEng .ok old) u ∧ PadSameOutside s u t a n
          ∧ (u.tile t).pad.bytes a n = leBytes n (rmwValue p n old).toNat))
      ∧ (p.op = .signal → ∃ u, exec (.signalArrive (.tile t) p) s = .next u
        ∧ sends_ (respTo e t p p.srcTile p.srcEng .ok 0) u ∧ PadSameOutside s u t a 4
        ∧ (u.tile t).pad.word a = x.pad.word a + 1))
    ∧ (s.isHeld t = false → x.pad.holds p = false → spaceOf p.addr ≠ 1 → s.padFault t p = true →
      (p.op = .put → exec (.putArrive (.tile t) p) s = .next (s1.answer t p .addressFault))
      ∧ (p.op = .get → exec (.getArrive (.tile t) p) s = .next (s1.answer t p .addressFault))
      ∧ (p.op = .atomic → exec (.atomicArrive (.tile t) p) s = .next (s1.answer t p .addressFault))
      ∧ (p.op = .signal → exec (.signalArrive (.tile t) p) s = .next (s1.answer t p .addressFault)))
    ∧ (s.isHeld t = false ∨ isCommand p = true → spaceOf p.addr = 1 → p.op = .put →
      exec (.putArrive (.tile t) p) s = .next (if s.regFault t p then s1.answer t p .addressFault
        else (State.regPuts (p.len / 4) s1 t a p.data (p.srcKind = 1)).answer t p .ok))
    ∧ (s.isHeld t = false ∨ isCommand p = true → spaceOf p.addr = 1 → p.op = .get →
      let bytes := ((List.range (p.len / 4)).map fun i => leBytes 4 (s.regRead t (a + 4 * i)).toNat).flatten
      exec (.getArrive (.tile t) p) s = .next (if s.regFault t p then s1.answer t p .addressFault
        else (if a = 0x20 then s1.latchTimer t else s1).inject t [getResp e t p bytes]))
    ∧ (s.isHeld t = false → x.pad.holds p = true → p.op = .put →
      exec (.putArrive (.tile t) p) s = .next (s1.modTile t (·.modPad fun d => { d with held := d.held ++ [p] })))
    ∧ (s.isHeld t = true → isCommand p = false → p.op = .put → exec (.putArrive (.tile t) p) s = .next (s1.refuse t p .spanReset))

/-- A request that heads its channel on an attachment link of the active Keystone: PUT within a range that admits it writes
the SRAM, GET changes nothing, ATOMIC and SIGNAL change one word; a SIGNAL by a tile of span n to that span's heartbeat word
is noted for its watchdog; an operation no range admits changes nothing (R21, R252, R287). No tile's scratchpad changes. -/
def Obligations.KeystoneRequests : Prop :=
  ∀ (s : State) (north : Bool) (p : Packet) (s1 : State),
    let k := Place.side north
    let o := addrKsOff p.addr
    let n := reqLen p
    s.takeEdge (.keystone k) p = some s1 → s.mgmt.active = k →
    let same := fun (u : State) => u.spans = s.spans ∧ u.mgmt = s.mgmt ∧ ∀ t, (u.tile t).pad = (s.tile t).pad
    let m := (s.ks k).sram
    let old := BitVec.ofNat 64 (leNat (mBytes 0 m o n))
    (s.ksAdmits p = true → p.op = .put → ∃ u, exec (.putArrive (.keystone north) p) s = .next u ∧ same u
      ∧ (u.ks k).sram = mPutBytes 0 m o p.data)
    ∧ (s.ksAdmits p = true → p.op = .get → ∃ u, exec (.getArrive (.keystone north) p) s = .next u ∧ same u ∧ u.ks k = s.ks k)
    ∧ (s.ksAdmits p = true → p.op = .atomic → o % n = 0 → ∃ u, exec (.atomicArrive (.keystone north) p) s = .next u ∧ same u
      ∧ (u.ks k).sram = mPutBytes 0 m o (leBytes n (rmwValue p n old).toNat))
    ∧ (∀ j, beatSpan p = some j → p.op = .signal → p.srcKind = 0 → p.span = j →
      ∃ u, exec (.signalArrive (.keystone north) p) s = .next u ∧ (u.span j).beat = true
        ∧ (u.ks k).sram = mPutBytes 0 m o (leBytes n (rmwValue p n old).toNat) ∧ (∀ i, i ≠ j → u.span i = s.span i))
    ∧ (s.ksAdmits p = false → p.op = .put → ∃ u, exec (.putArrive (.keystone north) p) s = .next u ∧ same u ∧ u.ks k = s.ks k)

/-- A SEND that heads its channel, to an open plain queue of its generation, in the tile's course, with its banks on: the
message joins the queue, its bytes in its slots, the count of arrivals advances, and the sender is answered OK (R66, R230);
to a closed queue it is answered READER_GONE and counted (R233). A PUT REDUCE that matches the combining queue's declaration
adds its contributors to the round, whose sum is held once all are in; the first one's payload is the sum (R234). -/
def Obligations.MessagesArrive : Prop :=
  ∀ (s : State) (t : Nat) (p : Packet), t < Config.nTiles → (p.srcKind ≠ 0 ∨ p.srcEng = s.mgmt.engId) →
    let x := s.tile t
    let e := s.mgmt.engId
    let s1 := s.modTile t (·.modNi fun k => { k with inbox := dropPacket p k.inbox })
    firstOn p.vc x.ni.inbox = some p → firstOn p.vc x.pad.held = none → s.isHeld t = false → x.pad.holds p = false →
    (p.op = .send →
      let i := sendQueue p.addr
      let q := x.queue i
      let base := 0xF700 + 256 * i + 32 * p.sub.toNat
      (i < 8 → q.isOpen = true → q.gen = p.gen → q.comb = false → tagCourse (s.admitTag t p) = x.course →
        0 < p.data.length → 32 * p.sub.toNat + p.data.length ≤ 256 → x.pad.anyOff base p.data.length = false →
        ∃ u, exec (.sendArrive t p) s = .next u
          ∧ ((u.tile t).queue i).msgs = q.msgs ++ [⟨q.serial, p.sub.toNat, slotsFor p.data.length, p.data.length,
              s.admitTag t p, p.srcTile, p.srcEng, p.srcKind, false⟩]
          ∧ ((u.tile t).queue i).arrived = (q.arrived + 1) % 16384 ∧ (∀ j, j ≠ i → (u.tile t).queue j = x.queue j)
          ∧ (∀ j b, p.data[j]? = some b → (u.tile t).pad.read (base + j) = b)
          ∧ (∀ b, b < 0xFF00 → b < base ∨ base + p.data.length ≤ b → (u.tile t).pad.read b = x.pad.read b)
          ∧ (p.srcTile ≠ t ∨ p.srcKind ≠ 0 →
            (u.tile t).ni.inj = x.ni.inj ++ [{ respTo e t p p.srcTile p.srcEng .ok 0 with rtEpoch := s.routes.epoch }])
          ∧ (u.tile t).seq = x.seq ∧ OthersSame s u t)
      ∧ (q.isOpen = false ∨ q.gen ≠ p.gen →
        exec (.sendArrive t p) s = .next ((s1.modTile t (·.count cRefused 1)).answer t p .readerGone)))
    ∧ (p.op = .putReduce → x.comb.held = false → p.doff = 0xFE00 → (x.queue 7).isOpen = true → (x.queue 7).comb = true →
      x.pad.anyOff 0xFE00 p.len = false → p.rid = bitsW x.comb.decl0 0 16 → p.rfmt = bitW x.comb.decl0 16 →
      p.len = bitsW x.comb.decl1 0 9 → x.comb.count + p.contribs.length ≤ bitsW x.comb.decl0 17 15 →
      p.data.length = p.len → p.len ≤ 256 → ∃ u, exec (.putReduceArrive t p) s = .next u
        ∧ (u.tile t).comb.count = x.comb.count + p.contribs.length
        ∧ (u.tile t).comb.held = decide (x.comb.count + p.contribs.length = bitsW x.comb.decl0 17 15)
        ∧ (x.comb.count = 0 → ∀ j b, p.data[j]? = some b → (u.tile t).pad.read (0xFE00 + j) = b)
        ∧ (∀ b, b < 0xFE00 → (u.tile t).pad.read b = x.pad.read b) ∧ (u.tile t).queues = x.queues
        ∧ (u.tile t).seq = x.seq ∧ OthersSame s u t)

/-- A CREDIT_REQ with a reserved bit set is answered ADDRESS_FAULT (R215). One to an open plain queue with no request before it: where a run of free slots stands it is granted to the
sender; else it waits (R232). Slots given back to a queue leave the sender's grant; slots returned to a sender enter its
entry. A grant to a waiting SEND enters its credits, and the SEND may leave; a grant for no SEND is given back (R236). The
request is sent again 64 cycles after RETRY (R218). An entry idle for 4,096 cycles gives back its slots. -/
def Obligations.CreditsMove : Prop :=
  ∀ (s : State) (t : Nat) (p : Packet), t < Config.nTiles →
    let x := s.tile t
    let s1 := s.modTile t (·.modNi fun k => { k with inbox := dropPacket p k.inbox })
    (firstOn p.vc x.ni.inbox = some p → firstOn p.vc x.pad.held = none → s.isHeld t = false →
      (p.op = .creditReq → 0 < p.run → p.run ≤ 8 → p.rsv = 0 →
        let q := x.queue p.queue
        let q' := if p.gen = q.gen then q.giveUp p.srcTile p.srcEng p.srcKind p.slots else q
        q.isOpen = true → q.comb = false → q.waits = [] →
        (runs (~~~q'.used) p.run ≠ [] → ∃ u j, exec (.creditReqArrive t p) s = .next u ∧ j ∈ runs (~~~q'.used) p.run
          ∧ (u.tile t).queue p.queue
            = { q' with grants := q'.grants ++ [⟨p.srcTile, p.srcEng, p.srcKind, runMask j p.run⟩] }
          ∧ (u.tile t).seq = x.seq ∧ OthersSame s u t)
        ∧ (runs (~~~q'.used) p.run = [] → x.waitingReqs < 16 → ∃ u, exec (.creditReqArrive t p) s = .next u
          ∧ (u.tile t).queue p.queue
            = { q' with waits := [⟨p.srcTile, p.srcEng, p.srcKind, p.span, p.run, p.opid, p.serial⟩] }
          ∧ (u.tile t).ni.inj = x.ni.inj ∧ OthersSame s u t))
      ∧ (p.op = .creditReq → p.rsv ≠ 0 → exec (.creditReqArrive t p) s = .next (s1.answer t p .addressFault))
      ∧ (p.op = .creditRet → p.toSender = false →
        let q := x.queue p.queue
        q.isOpen = true → q.comb = false → q.gen = p.gen → q.waits = [] → ∃ u, exec (.creditRetArrive t p) s = .next u
          ∧ (u.tile t).queue p.queue = q.giveUp p.srcTile p.srcEng p.srcKind p.slots ∧ (u.tile t).ni.inj = x.ni.inj
          ∧ OthersSame s u t)
      ∧ (p.op = .creditRet → p.toSender = true → x.ni.credits.any (·.channel p.srcEng p.srcTile p.queue) = true →
        exec (.creditRetArrive t p) s
          = .next ((s1.modTile t (·.modNi fun n => (n.addCredit p.srcEng p.srcTile p.queue p.gen p.slots id).wake)).pump t))
      ∧ (p.op = .creditGrant → x.ni.ops.any (·.grantee p) = true →
        exec (.creditGrantArrive t p) s = .next ((s1.modTile t (·.modNi fun n => (n.addCredit p.srcEng p.srcTile p.queue
          p.gen p.slots fun c => { c with used := s.now }).wake)).pump t))
      ∧ (p.op = .creditGrant → x.ni.ops.any (·.grantee p) = false →
        exec (.creditGrantArrive t p) s = .next (s1.giveBack t ⟨p.srcEng, p.srcTile, p.queue, p.gen, p.slots, 0⟩)))
    ∧ (∀ id k o a u out c, (x.ni.ops.findIdx? fun o => o.id = id) = some k → x.ni.ops[k]? = some o → o.st = .retry a →
      a + 64 ≤ s.now → s.exit t o.dest = .ok (u, out) → x.ni.credits.find? (·.isFor o) = some c →
      ∃ v, exec (.creditRetry t id) s = .next v ∧ (v.tile t).ni.ops = x.ni.ops.set k { o with st := .requested }
        ∧ (v.tile t).ni.inj ++ (v.tile t).ni.inbox ≠ x.ni.inj ++ x.ni.inbox ∧ OthersSame s v t)
    ∧ (∀ k c, x.ni.credits[k]? = some c → c.slots ≠ 0 → c.used + 4096 ≤ s.now →
      let left := if x.ni.sendWaits c then x.ni.credits.set k { c with slots := 0 } else x.ni.credits.eraseIdx k
      exec (.creditIdleReturn t k) s
        = .next (((s.modTile t (·.modNi fun n => { n with credits := left })).giveBack t c).pump t))

/-- An answer that fits an operation in flight completes it: a GET's bytes land at the landing offset, and the operation is
answered with the code; what follows is what the interface can then do (R219, R222). An answer to no operation, and a packet
of a kind that only Piers exchange (R217), is discarded and counted. The landing range of an operation that is to be reported
FLOW_STOPPED stays until the report (R225). An operation unanswered for 67,108,864 cycles fails with RESPONSE_TIMEOUT (R219), a SEND that has waited
TILE_SEND_WAIT cycles for credits with QFULL_TIMEOUT (R236). Such a failure stops the flow and makes cause 9 pending (R58,
R224). -/
def Obligations.AnswersComplete : Prop :=
  ∀ (s : State) (t : Nat), t < Config.nTiles →
    let x := s.tile t
    (∀ p, p.op.pierOnly = true → firstOn p.vc x.ni.inbox = some p → firstOn p.vc x.pad.held = none →
      exec (.answerArrive t p) s = .next ((s.modTile t (·.modNi fun k => { k with inbox := dropPacket p k.inbox })).modTile t
        (·.count cAnsDisc 1)))
    ∧ (∀ p, p.op = .resp ∨ p.op = .getResp → firstOn p.vc x.ni.inbox = some p → firstOn p.vc x.pad.held = none →
      let s1 := s.modTile t (·.modNi fun k => { k with inbox := dropPacket p k.inbox })
      (s.isHeld t = true ∨ answered p x.ni.ops = none →
        exec (.answerArrive t p) s = .next (s1.modTile t (·.count cAnsDisc 1)))
      ∧ (∀ k o, s.isHeld t = false → answered p x.ni.ops = some k → x.ni.ops[k]? = some o → answerFits o p = true →
        exec (.answerArrive t p) s = .next ((s1.takeAnswer t k o p).pump t)
        ∧ (let v := s1.takeAnswer t k o p
          (o.kind = .get → o.pull = false → p.op = .getResp → p.code = .ok → p.data ≠ [] → o.loc + p.data.length ≤ 65536 →
            x.pad.anyOff o.loc p.data.length = false →
            (∀ j b, p.data[j]? = some b → (v.tile t).pad.read (o.loc + j) = b)
            ∧ PadSameOutside s v t o.loc p.data.length
            ∧ (v.tile t).ni.ops = x.ni.ops.set k { o with st := .answered .ok, old := p.old, lands := o.lands && o.doomed })
          ∧ (p.op = .resp → p.code = .retry → (v.tile t).ni.ops = x.ni.ops.set k { o with st := .retry s.now })
          ∧ OthersSame s v t)))
    ∧ (∀ id k o a, (x.ni.ops.findIdx? fun o => o.id = id) = some k → x.ni.ops[k]? = some o → o.st = .sent a →
      a + 67108864 ≤ s.now →
      exec (.responseTimeout t id) s = .next ((s.answerOp t k o .responseTimeout).pump t)
      ∧ ((s.answerOp t k o .responseTimeout).tile t).ni.ops
          = x.ni.ops.set k { o with st := .answered .responseTimeout, lands := o.lands && o.doomed })
    ∧ (∀ id k o, (x.ni.ops.findIdx? fun o => o.id = id) = some k → x.ni.ops[k]? = some o → o.kind = .send →
      o.unsent = true → x.ni.sendWait ≤ o.waited →
      exec (.qfullTimeout t id) s = .next ((s.answerOp t k o .qfullTimeout).pump t)
      ∧ ((s.answerOp t k o .qfullTimeout).tile t).ni.ops
          = x.ni.ops.set k { o with st := .answered .qfullTimeout, lands := o.lands && o.doomed })
    ∧ (∀ o a, x.ni.ops = [o] → x.eng.vec = [] → o.st = .sent a → a + 67108864 ≤ s.now → o.doomed = false → o.pull = false →
      x.ni.stopped.length < 16 → (∀ e ∈ x.seq.pend, e.cause ≠ 9) → ∃ u, exec (.responseTimeout t o.id) s = .next u
        ∧ (u.tile t).ni.ops = [] ∧ (u.tile t).ni.stopped = x.ni.stopped ++ [(o.dest, o.vc, .responseTimeout)]
        ∧ (u.seq t).pend = x.seq.pend ++ [⟨9, addrHigh o.addr, Code.responseTimeout.toNat, 0⟩] ∧ OthersSame s u t)

/-- Valid input latches the straps and ramps the management rails where RESET_N is high (R15, R257, R439); rails that take
500 ms are cycled once, then stay dead. ROM entry starts both Keystones with their lock-area versions and global time at 0;
with a coolant pin low the engine is HALTED (R255, R257, R411, R412). A Keystone's image is verified, or fails with the first
cause; it fails when the flash does not answer, or when one read command fails a third time, which ends a
replacement's read-back too (R282, R295), and after 8 s (R256, R289). The election takes south before north;
with no image verified RECOVERY is set, which 10 s after ROM entry ends in SAFE with cause 5 (R258, R259). -/
def Obligations.PowerToElection : Prop :=
  ∀ (s : State),
    (∀ slot feed, s.mgmt.standby = false → ∃ u, exec (.inputValid slot feed) s = .next u ∧ u.mgmt.standby = true
      ∧ u.tiles = s.tiles ∧ u.fields = s.fields
      ∧ (s.mgmt.resetN = true → u.mgmt.slotValid = true ∧ u.mgmt.engId = slot.toNat ∧ u.mgmt.feedId = feed.toNat
          ∧ u.mgmt.rails = .ramping s.time false ∧ u.kiln.feedA = true ∧ u.kiln.feedB = true)
      ∧ (s.mgmt.resetN = false → u.mgmt = { s.mgmt with standby := true } ∧ u.kiln = s.kiln))
    ∧ (∀ a cycled, s.mgmt.rails = .ramping a cycled → s.mgmt.st = .off → a + Config.ms 500 ≤ s.time →
      exec .mgmtRailsTimeout s = .next (s.modMgmt fun m =>
        { m with rails := if cycled then .dead else .ramping s.time true }))
    ∧ (∀ a cycled, s.mgmt.rails = .ramping a cycled → s.mgmt.st = .off → ∃ u, exec .romEntry s = .next u
      ∧ (s.mgmt.coolantA = true → s.mgmt.coolantB = true → u.mgmt.st = .rom ∧ u.mgmt.rails = .on ∧ u.mgmt.romAt = s.time
        ∧ (∀ k, (u.ks k).verdict = 1 ∧ (u.ks k).lockVer
            = if (s.ks k).present ∧ (s.ks k).lockOk then some (lockVersion (s.ks k).lock) else none)
        ∧ u.sgr.secverDev = max ((u.ks .south).lockVer.getD 0) ((u.ks .north).lockVer.getD 0)
        ∧ u.clk.master = 0 ∧ u.clk.running = true)
      ∧ (s.mgmt.coolantA = false ∨ s.mgmt.coolantB = false → u.mgmt.st = .halted ∧ u.tiles = []))
    ∧ (∀ k, (s.ks k).verdict = 1 → (s.ks k).present = true →
      let c := flashCause (s.ks k).flash s.sgr.secverDev s.mgmt.feedId
      ((s.ks k).lockVer = none → ∃ u, exec (.imageVerify k) s = .next u ∧ (u.ks k).verdict = 3 ∧ (u.ks k).cause = 2)
      ∧ ((s.ks k).lockVer ≠ none → c = 0 → ∃ u, exec (.imageVerify k) s = .next u ∧ (u.ks k).verdict = 2
        ∧ (u.ks k).cause = 0 ∧ (u.ks k).imgLen = hdrLen (s.ks k).flash ∧ (u.ks k).flash = (s.ks k).flash
        ∧ u.ks k.other = s.ks k.other ∧ u.mgmt.firstOkAt = some (s.mgmt.firstOkAt.getD s.time))
      ∧ ((s.ks k).lockVer ≠ none → c ≠ 0 → ∃ u, exec (.imageVerify k) s = .next u ∧ (u.ks k).verdict = 3
        ∧ (u.ks k).cause = c ∧ (u.ks k).flash = (s.ks k).flash ∧ u.ks k.other = s.ks k.other))
    ∧ (∀ k sfdp, (s.ks k).verdict = 1 → ∃ u, exec (.flashReadTimeout k sfdp) s = .next u
      ∧ (sfdp = true → s.mgmt.romAt + Config.ms 10 ≤ s.time → (u.ks k).verdict = 3 ∧ (u.ks k).cause = 1)
      ∧ (let n := if s.time ≤ (s.ks k).triedAt + readLimit k then (s.ks k).tries else 0
        (sfdp = false → n < 2 → u = s.modKs k fun x => { x with tries := n + 1, triedAt := s.time })
        ∧ (sfdp = false → 2 ≤ n → (u.ks k).verdict = 3 ∧ (u.ks k).cause = 2)))
    ∧ (∀ k, (s.ks k).verdict ≠ 1 → (s.ks k).rcv.phase = .readback → 2 ≤ (s.ks k).tries →
      s.time ≤ (s.ks k).triedAt + readLimit k → ∃ u, exec (.flashReadTimeout k false) s = .next u
        ∧ (u.ks k).rcv.phase = .failed ∧ (u.ks k).rcv.cause = 2)
    ∧ (∀ k, (s.ks k).verdict = 1 → s.mgmt.romAt + Config.sec 8 ≤ s.time → ∃ u, exec (.imageAbandon k) s = .next u
      ∧ (u.ks k).verdict = 3 ∧ (u.ks k).cause = 11)
    ∧ (s.mgmt.st = .rom → s.mgmt.elected = false → s.south.finished = true → s.north.finished = true →
      ∃ u, exec .electionClose s = .next u ∧ u.mgmt.elected = true ∧ u.mgmt.pcieRails = true
        ∧ (s.south.verdict = 2 → u.mgmt.active = .south ∧ u.mgmt.peer = decide (s.north.verdict = 2)
            ∧ u.mgmt.degrKs = decide (s.north.verdict ≠ 2))
        ∧ (s.south.verdict ≠ 2 → s.north.verdict = 2 → u.mgmt.active = .north ∧ u.mgmt.peer = false ∧ u.mgmt.degrKs = true)
        ∧ (s.south.verdict ≠ 2 → s.north.verdict ≠ 2 → u.mgmt.recovery = true))
    ∧ (s.mgmt.st = .rom → s.mgmt.recovery = true → s.mgmt.romAt + Config.sec 10 ≤ s.time →
      (∀ h, h < 4 → (s.port h).trained = false) → ∃ u, exec .recoveryTimeout s = .next u
        ∧ u.mgmt.st = .safe ∧ u.mgmt.safeCause = 5 ∧ u.tiles = [])

/-- The root is the qualified count nearest the nominal one, the lower column on a tie, and the engine is in BISQUE (R260,
R327); with none in 100 ms, or after a rejected image, the role passes to a verified peer, else SAFE (R256, R260, R292). A
field gets its rail-on command in its turn, qualifies on three good reports and its clock within 20 ms, or is listed with
cause 0 (R262, R263). Its tiles report self-test once each, or are taken as failed after 500 ms (R265). Link measurement
starts when every field is settled; its end, once the window is over in every qualified field, writes the live map and
epoch-0 routes that hold the bounds of R445, and lists a tile whose table would need more than 32 entries (R266 to R269). At the end of BISQUE the first
missing part of the smallest working set gives SAFE its cause (R278); else the policy is loaded and the steps to F_TOP
begin, one at a time (R303, R311). -/
def Obligations.BisquePass : Prop :=
  ∀ (s : State),
    (∀ counts fx, s.rootDue = true → s.kiln.feedA = true → electRoot counts = some fx → ∃ u,
      exec (.rootElection counts) s = .next u ∧ u.mgmt.st = .bisque ∧ u.clk.valid = true ∧ u.clk.fx = fx
        ∧ u.clk.edge = s.mgmt.active ∧ u.clk.core = false ∧ u.tiles = s.tiles ∧ u.fields = s.fields
        ∧ fx < 8 ∧ ∃ c, counts[fx]? = some (some c) ∧ refOk c = true
        ∧ ∀ i d, i < 8 → counts[i]? = some (some d) → refOk d = true →
          ((c : Int) - 209715).natAbs ≤ ((d : Int) - 209715).natAbs
          ∧ (i < fx → ((c : Int) - 209715).natAbs < ((d : Int) - 209715).natAbs))
    ∧ (s.rootDue = true → s.mgmt.electedAt + Config.ms 100 ≤ s.time → ∃ u, exec .rootQualifyTimeout s = .next u
      ∧ (s.mgmt.peer = true → u.mgmt.active = s.mgmt.active.other ∧ u.mgmt.peer = false ∧ u.clk.valid = false)
      ∧ (s.mgmt.peer = false → u.mgmt.st = .safe ∧ u.mgmt.safeCause = 2))
    ∧ (∀ ok a, (s.ks s.mgmt.active).rejecting = some a → ∃ u, exec (.rejectionRecordWritten ok) s = .next u
      ∧ (u.ks s.mgmt.active).rejecting = none
      ∧ (s.mgmt.peer = true → u.mgmt.active = s.mgmt.active.other ∧ u.mgmt.st = .bisque)
      ∧ (s.mgmt.peer = false → u.mgmt.st = .safe ∧ u.mgmt.safeCause = 3)
      ∧ (ok = true → s.time ≤ a + Config.sec 2 → ∀ i, i < 64 → mRead erased (u.ks s.mgmt.active).flash (statusSector + i)
          = (rejectionRecord (s.ks s.mgmt.active).cause (s.ks s.mgmt.active).sect
              (imgDigest (s.ks s.mgmt.active).img)).getD i 0))
    ∧ (∀ f, f < 48 →
      let x := s.field f
      (s.mgmt.st = .bisque → s.clk.valid = true → s.mgmt.windowAt = none → (s.ks s.mgmt.active).rejecting = none →
        s.eligible f = true → (∀ g, g < 48 → s.eligible g = true → g ≠ f → s.wave f < s.wave g ∨ (s.wave g = s.wave f ∧ f < g)) →
        ((List.range 48).filter fun g => (s.field g).stage.isRamping).length < 8 →
        (if fieldFeedB f then s.kiln.feedB else s.kiln.feedA) = true → ∃ u, exec (.fieldRailOn f) s = .next u
          ∧ (u.field f).stage = .ramping s.time ∧ (u.field f).railOff = false
          ∧ (∀ g, g ≠ f → u.field g = s.field g) ∧ u.mgmt.wave = max s.mgmt.wave (s.wave f) ∧ u.tiles = s.tiles)
      ∧ (∀ a clk, x.stage = .ramping a → s.time ≤ a + Config.ms 20 → 3 ≤ x.good → coreOk clk = true → x.tripped = false →
        s.disturbed (0x20 + f) = false → ∃ u, exec (.fieldQualify f clk) s = .next u ∧ (u.field f).stage = .qualified ∧ (u.field f).resetAt = s.now
          ∧ (u.field f).copy = s.clk.master * 65536
          ∧ ∀ t, u.tile t = if fieldOf t = f then Tile.reset else s.tile t)
      ∧ (∀ a, x.stage = .ramping a → a + Config.ms 20 ≤ s.time → ∃ u, exec (.fieldQualifyTimeout f) s = .next u
        ∧ (u.field f).stage = .listed 0 ∧ (u.field f).railOff = true ∧ u.tiles = s.tiles)
      ∧ (x.stage = .qualified → x.selfTested = false → x.qualAt + Config.ms 500 ≤ s.time →
        exec (.selfTestTimeout f) s = .next (s.modField f fun y => { y with selfTested := true })))
    ∧ (∀ t logicOk banksOk, t < Config.nTiles →
      let x := s.field (fieldOf t)
      x.stage = .qualified → x.selfTested = false → listedIn s.map.factory t = false → x.tests.any (·.1 = t) = false →
      ∃ u, exec (.selfTestReport t logicOk banksOk) s = .next u ∧ u.tiles = s.tiles
        ∧ (u.field (fieldOf t)).tests = x.tests ++ [(t, logicOk, banksOk)] ∧ (∀ g, g ≠ fieldOf t → u.field g = s.field g))
    ∧ (s.mgmt.st = .bisque → s.mgmt.windowAt = none → s.fieldsSettled = true →
      (∀ f, f < 48 → s.qualified f = true → (s.field f).selfTested = true) →
      exec .linkMeasureStart s = .next { s.modMgmt fun m =>
          { m with windowAt := some s.now, step := 5, vdtRails := true, linkProg := 0 } with
        fields := s.fields.map fun e => (e.1, { e.2 with measAt := s.now - e.2.resetAt }) })
    ∧ (∀ a errs overfull routes, s.mgmt.windowAt = some a → s.mgmt.mapAt = none → s.mgmt.st = .bisque →
      a + 39062500000 ≤ s.now → (∀ f, f < 48 → s.qualified f = true → (s.field f).measured s.now = true) →
      (s.mapWritten errs overfull routes).routesHold = true → (s.mapWritten errs overfull routes).castsHold = true →
      ∃ u, exec (.linkWindowEnd errs overfull routes) s = .next u
        ∧ u.mgmt.mapAt = some s.time ∧ u.mgmt.step = 6 ∧ u.routes.epoch = 0 ∧ u.map.gen = (s.map.gen + 2) % 2 ^ 32
        ∧ u.map.recs = (mapFit 48 1 (mapNorm (s.map.recs ++ s.bisqueRecords errs (overfull ++ overfullIn routes))) []).1
        ∧ u.map.usable = mapUsable u.map.recs)
    ∧ (∀ a, s.mgmt.mapAt = some a → s.mgmt.st = .bisque → a + Config.sec 30 ≤ s.time → ∃ u,
      exec .mapTimeout s = .next u ∧ u.mgmt.st = .safe ∧ u.mgmt.safeCause = 3)
    ∧ (∀ a, s.mgmt.st = .bisque → s.mgmt.mapAt = some a → (s.ks s.mgmt.active).rejecting = none → ∃ u,
      exec .bisqueEnd s = .next u
      ∧ (s.kiln.feedA = false → s.kiln.feedB = false → u.mgmt.st = .safe ∧ u.mgmt.safeCause = 1)
      ∧ (s.kiln.feedA = true ∨ s.kiln.feedB = true → s.clk.valid = false → u.mgmt.st = .safe ∧ u.mgmt.safeCause = 2)
      ∧ (s.kiln.feedA = true ∨ s.kiln.feedB = true → s.clk.valid = true → reachable s.map.recs s.mgmt.active = [] →
        u.mgmt.st = .safe ∧ u.mgmt.safeCause = 3)
      ∧ (s.kiln.feedA = true ∨ s.kiln.feedB = true → s.clk.valid = true → reachable s.map.recs s.mgmt.active ≠ [] →
        (s.directoryOk = true → s.badSection = none → u.mgmt.st = .glost ∧ u.mgmt.glostAt = s.time
          ∧ u.kiln.cap = polCap s.image ∧ u.kiln.fstep = s.kiln.fstep
          ∧ (s.kiln.fstep < polFtop s.image → u.kiln.pend = true ∧ u.kiln.fpend = s.kiln.fstep + 1))
        ∧ (s.directoryOk = false → (u.ks s.mgmt.active).verdict = 4 ∧ (u.ks s.mgmt.active).cause = 13)))

/-- Commands of the Glost pass at a usable tile, with what the image gives them: open, digests, close after every segment; a
part that is not the last of a content segment lands
at its place and joins what the tile has; with the last one a segment whose digest agrees is verified (R273, R274). From
65,536 cycles after the close a tile asks the Keystone for a directory segment it lacks, and the Keystone sends it again;
a content segment it pulls by GETs from the next of its candidates (R275). A tile that has verified all it expects reports; once the last has, the spans are loading, or a bad layout rejects
the image; 10 s after the close the rest are listed (R241, R276). -/
def Obligations.GlostPass : Prop :=
  ∀ (s : State) (t : Nat), t < Config.nTiles → s.mgmt.st = .glost → s.mgmt.glostDone = false →
    (s.ks s.mgmt.active).rejecting = none →
    let g := (s.tile t).glost
    (s.usable t = true →
      (let n := glostN s.image
        let y : GlostTile := { opened := true, n := n, d := dirCount n }
        exec (.glostOpen t n (dirCount n)) s = .next (s.modTile t fun x => { x with glost := y })
        ∧ (n < 65536 → dirCount n < 65536 →
            readGlost (GlostCmd.open_ n (dirCount n)).words.1 (GlostCmd.open_ n (dirCount n)).words.2
              = some (.open_ n (dirCount n)))
        ∧ ∀ n' d', n' ≠ n ∨ d' ≠ dirCount n → exec (.glostOpen t n' d') s = .next s)
      ∧ (∀ first, g.opened = true → first % 5 = 0 →
        let ds := digestsFrom s.image first
        ∃ u, exec (.glostDigests t first ds) s = .next u
        ∧ (∀ i x, ds[i]? = some x → tGet? (u.tile t).glost.digests (first + i) = some x)
        ∧ (∀ k, k < first ∨ first + ds.length ≤ k → tGet? (u.tile t).glost.digests k = tGet? g.digests k)
        ∧ OthersSame s u t)
      ∧ ((∀ k, k < glostN s.image → s.mgmt.segsSent.contains k = true) → ∃ u, exec (.glostClose t) s = .next u ∧ (u.tile t).glost = { g with closedAt := some (g.closedAt.getD s.now) }
        ∧ u.mgmt.closeAt = some (s.mgmt.closeAt.getD s.time) ∧ OthersSame s u t)
      ∧ (∀ seg part raw, seg < glostN s.image → 256 * part < segLen s.image seg → s.mayBroadcast seg = true → g.opened = true → g.verified.contains seg = false → g.d ≤ seg → tGet? g.expect seg = some raw →
        let e := dirEntry raw
        let bs := partBytes s.image seg part
        let got := (if part = 0 then [] else tGet [] g.got seg) ++ bs
        ∃ u, exec (.glostPart t seg part bs) s = .next u ∧ tGet? (u.tile t).glost.got seg = some got ∧ OthersSame s u t
          ∧ u.mgmt.segsSent.contains seg = true
          ∧ (e.dest = 1 → (u.tile t).istore = mPutBytes 0 (s.tile t).istore (e.loff + 256 * part) bs)
          ∧ (256 * (part + 1) < e.len → (u.tile t).glost.verified = g.verified)
          ∧ (e.len ≤ 256 * (part + 1) → segOk raw got = true → (u.tile t).glost.verified = g.verified ++ [seg]))
      ∧ (∀ seg a, g.closedAt = some a → a + 65536 ≤ s.now → g.listed = false → g.reported = false → g.lacks seg = true →
        g.asked.contains seg = false → g.pull = none → (s.tile t).ni.ops = [] →
        (tGet? g.expect seg = none → exec (.glostPull t seg) s = .next (s.modTile t fun x => { x with glost :=
          { x.glost with pulls := x.glost.pulls + 1, asked := x.glost.asked ++ [seg] } }))
        ∧ (∀ raw, tGet? g.expect seg = some raw → g.resetOf = none →
          let cs := s.pullFrom t (dirEntry raw)
          let k := tGet 0 g.tried seg
          let s1 := s.modTile t fun x => { x with glost :=
            { x.glost with pulls := g.pulls + 1, tried := tPut g.tried seg (k + 1) } }
          (cs[k % (cs.length + 1)]? = none → exec (.glostPull t seg) s = .next (s1.modTile t fun x => { x with glost :=
            { x.glost with asked := g.asked ++ [seg] } }))
          ∧ (∀ u, cs[k % (cs.length + 1)]? = some u → exec (.glostPull t seg) s = .next (s1.pullGets t u seg (dirEntry raw)))))
      ∧ (∀ seg, g.asked.contains seg = true → ∃ u, exec (.pullRequest t seg) s = .next u
        ∧ (u.tile t).glost.asked = g.asked.filter (· ≠ seg) ∧ OthersSame s u t)
      ∧ (g.reported = false → g.done = true ∨ g.listed = true →
        let s1 := s.modTile t fun x => { x with glost := { x.glost with reported := true } }
        (s1.allReported = false → exec (.glostReport t) s = .next s1)
        ∧ (s1.allReported = true → (∀ e ∈ s1.tiles, e.2.glost.listed = false) → ∃ u, exec (.glostReport t) s = .next u
          ∧ (s.layoutOk = true → u.mgmt.glostDone = true ∧ u.spans = tOf ((spanRecs s.image).map fun e =>
              (e.1, ({ layout := e.2, state := .loading } : Span))))
          ∧ (s.layoutOk = false → (u.ks s.mgmt.active).verdict = 4 ∧ (u.ks s.mgmt.active).cause = 12))))
    ∧ (∀ a, s.mgmt.closeAt = some a → a + Config.sec 10 ≤ s.time → ∃ u, exec .glostTimeout s = .next u
      ∧ (u.mgmt.glostDone = true ∨ (u.ks s.mgmt.active).verdict = 4))

/-- A plausible report is taken, and three in a row count toward qualification; an implausible one, or none for 60 µs, fails
the sensor (R263, R300, R301); a field in service at 125 °C stops the engine (R318). A tick gives every span a gate value,
at least 16 to a FLEX span and LMIN to a FIRM one, and at most 64 (R309, R310). KLN_CAP is clamped (R323). A step that is
locked, with no droop for 10 µs, is made at the root, and the next one toward F_TOP begins (R311, R313, R328). A droop stretches the
field's clock, and the last stretched cycle ends it or, with the rail still low, begins another STRETCH (R314, R315). A low
coolant pin halts the engine (R317); a regulator group beyond its limits takes its field off until cold reset (R302, R319);
a feed group none of whose blades has been in range for 200 µs takes its fields and ports off (R298, R320). -/
def Obligations.KilnActs : Prop :=
  ∀ (s : State),
    (∀ n mv ma temp, n < 48 →
      let x := s.field n
      (fieldPlausible x.railOff mv ma temp = true → x.sfail = false →
        (temp < 125 → ∃ u, exec (.telemetryReport n mv ma temp) s = .next u ∧ (∀ m, m ≠ n → u.field m = s.field m)
          ∧ u.field n = { x with mv := mv, ma := ma, temp := temp, plausible := 0, good := x.good + 1, reportAt := s.time }
          ∧ u.mgmt = s.mgmt ∧ u.tiles = s.tiles)
        ∧ (125 ≤ temp → s.coolantActs = true → ∃ u, exec (.telemetryReport n mv ma temp) s = .next u
          ∧ u.mgmt.st = .halted ∧ u.tiles = []))
      ∧ (fieldPlausible x.railOff mv ma temp = false → ∃ u, exec (.telemetryReport n mv ma temp) s = .next u
        ∧ (u.field n).sfail = true ∧ (u.field n).good = 0 ∧ u.mgmt = s.mgmt ∧ u.tiles = s.tiles)
      ∧ (s.mgmt.st ≠ .off → s.mgmt.st ≠ .deepOff → x.reportAt + Config.us 60 ≤ s.time → ∃ u,
        exec (.telemetryTimeout n) s = .next u ∧ (u.field n).sfail = true ∧ u.mgmt = s.mgmt))
    ∧ (∀ n mv ma temp, 48 ≤ n → n < 64 → ∃ u, exec (.telemetryReport n mv ma temp) s = .next u ∧ u.fields = s.fields
      ∧ (u.blade (n - 48)).mv = mv ∧ (u.blade (n - 48)).ma = ma
      ∧ (bladePlausible mv ma = false → (u.blade (n - 48)).failed = true)
      ∧ (u.blade (n - 48)).outSince
          = if 54000 ≤ mv ∧ mv ≤ 63000 then none else some ((s.blade (n - 48)).outSince.getD s.time))
    ∧ (s.mgmt.st = .glost ∨ s.inService = true → s.kiln.tick < s.tickNo → polLmin s.image ≤ 64 → ∃ u,
      exec .kilnTick s = .next u ∧ u.kiln.tick = s.tickNo ∧ u.kiln.pIn = (s.inputPower / 1000000).toNat
        ∧ u.tiles = s.tiles ∧ u.kiln.fstep = s.kiln.fstep
        ∧ ∀ e ∈ s.spans, e.2.state ≠ .unused → ∃ v, (e.1, v) ∈ u.kiln.gates ∧ v ≤ 64
          ∧ (e.2.layout.flex = true → 16 ≤ v) ∧ (e.2.layout.flex = false → polLmin s.image ≤ v))
    ∧ (∀ v, s.mgmt.st = .glost ∨ s.inService = true → exec (.klnCapWrite v) s
      = .next (s.modKiln fun k => { k with cap := max 4000 (min (polCap s.image) (v.toNat % 2 ^ 15)) }))
    ∧ (s.kiln.pend = true → s.mgmt.st = .glost ∨ s.inService = true → s.kiln.lockAt + Config.ns 81920 ≤ s.time →
      s.droopFree = true → ∃ u, exec .fstepChange s = .next u ∧ u.kiln.fstep = s.kiln.fpend
        ∧ u.kiln.pend = decide (s.kiln.fpend < polFtop s.image) ∧ (u.kiln.pend = true → u.kiln.fpend = s.kiln.fpend + 1)
        ∧ u.clk.core = !s.clk.core ∧ u.clk.switches = min 255 (s.clk.switches + 1) ∧ u.now = s.now ∧ s.time ≤ u.time
        ∧ u.tiles = s.tiles)
    ∧ (∀ f, f < 48 →
      (s.fieldClocked f = true → (s.field f).stretch = 0 → polStretch s.image ≠ 0 → ∃ u, exec (.droop f) s = .next u
        ∧ (u.field f).stretch = 2 * polStretch s.image ∧ (u.field f).droops = min 65535 ((s.field f).droops + 1)
        ∧ (∀ g, g ≠ f → u.field g = s.field g))
      ∧ ((s.field f).stretch ≠ 1 → ∀ low, exec (.stretchEnd f low) s = .next s)
      ∧ ((s.field f).stretch = 1 → ∀ low, exec (.stretchEnd f low) s = .next (s.modField f fun x =>
        if low then { x with stretch := 2 * polStretch s.image + 1 }
        else { x with stretch := 0, lastStretch := some s.time }))
      ∧ (∀ r mv ma ns, s.kiln.reg = some r → (s.field f).railOff = false → s.stoppable = true →
        ((r.overMa : Int) < ma ∧ r.overMaNs ≤ ns) ∨ ((r.overMv : Int) < mv ∧ r.overMvNs ≤ ns)
          ∨ ((s.field f).stage.isRamping = false ∧ mv < (r.underMv : Int) ∧ r.underMvNs ≤ ns) →
        ∃ u, exec (.regulatorTrip ⟨f, mv, ma, ns⟩) s = .next u ∧ (u.field f).railOff = true ∧ (u.field f).tripped = true
          ∧ ∀ t, fieldOf t = f → (u.tile t).pad = Tile.reset.pad ∧ (u.tile t).seq = Tile.reset.seq)
      ∧ (∀ r mv ma ns, s.kiln.reg = some r → ma ≤ (r.overMa : Int) → mv ≤ (r.overMv : Int) → (r.underMv : Int) ≤ mv →
        exec (.regulatorTrip ⟨f, mv, ma, ns⟩) s = .next s))
    ∧ (∀ b, s.coolantActs = true → ∃ u, exec (.coolantLoss b) s = .next u ∧ u.mgmt.st = .halted ∧ u.tiles = [])
    ∧ (∀ b, s.coolantActs = false → exec (.coolantLoss b) s = .next (s.modMgmt fun m =>
        if b then { m with coolantB := false } else { m with coolantA := false }))
    ∧ (∀ b, (if b then s.kiln.feedB else s.kiln.feedA) = true → s.stoppable = true →
      (∀ k, k < 16 → (b = true ↔ 8 ≤ k) → ∃ a, (s.blade k).outSince = some a ∧ a + Config.us 200 ≤ s.time) → ∃ u,
      exec (.feedGroupLoss b) s = .next u ∧ (if b then u.kiln.feedB else u.kiln.feedA) = false
        ∧ (∀ f, f < 48 → fieldFeedB f = b → s.factoryField f = false →
            (s.map.recs.any fun r => r.field? = some f) = false → (s.field f).stage = .qualified →
            (u.field f).railOff = true ∧ (u.field f).tripped = true)
        ∧ (∀ h, h < 4 → (Block.pcie h).feedB = b → (u.port h).state = .failed))

/-- Each of the four takes every domain to its reset state but the flash devices, the factory map, the level of RESET_N, the
supply and the model's own queue, clock and free values: RESET_N low holds the engine, its rise starts it from OFF with the
straps (R28, R388), and the coolant pins read high until COOLANT_LOSS (the model's choice, log 60); KLN_CTRL's key takes a serving or stopped engine to DEEP_OFF, from which WAKE_N alone starts it (R321,
R322); loss of input ends the standby supply (R441). -/
def Obligations.ResetsLeaveWhatLasts : Prop :=
  ∀ (s : State),
    let cold := fun (u : State) => u.tiles = [] ∧ u.fields = [] ∧ u.spans = [] ∧ u.rings = [] ∧ u.windows = []
      ∧ u.routes = { recs := s.map.factory } ∧ u.status = {} ∧ u.sgr = {} ∧ u.ckpt = {} ∧ u.vdt = {} ∧ u.now = 0
      ∧ u.south.flash = s.south.flash ∧ u.north.flash = s.north.flash ∧ u.south.lock = s.south.lock
      ∧ u.north.lock = s.north.lock ∧ u.south.img = [] ∧ u.north.img = [] ∧ u.map.factory = s.map.factory
      ∧ u.map.recs = s.map.factory ∧ u.pending = s.pending ∧ u.time = s.time ∧ u.freeCtr = s.freeCtr
      ∧ u.mgmt.coolantA = true ∧ u.mgmt.coolantB = true
    let starts := fun (slot : BitVec 8) (feed : BitVec 4) (u : State) => u.mgmt.slotValid = true
      ∧ u.mgmt.engId = slot.toNat ∧ u.mgmt.feedId = feed.toNat ∧ u.mgmt.rails = .ramping s.time false
    (s.mgmt.st ≠ .deepOff → ∃ u, exec .coldReset s = .next u ∧ cold u ∧ u.mgmt.st = .off ∧ u.mgmt.resetN = false
      ∧ u.mgmt.rails = .off ∧ u.mgmt.standby = s.mgmt.standby)
    ∧ (∀ v : BitVec 32, bitsW v 16 16 = 0xDEE0 → v.getLsbD 0 = true →
      s.inService = true ∨ s.mgmt.st = .safe ∨ s.mgmt.st = .halted → ∃ u, exec (.deepOffEntry v) s = .next u ∧ cold u
        ∧ u.mgmt.st = .deepOff ∧ u.mgmt.standby = s.mgmt.standby ∧ u.mgmt.resetN = s.mgmt.resetN)
    ∧ (∀ slot feed, s.mgmt.st = .deepOff → ∃ u, exec (.wake slot feed) s = .next u ∧ cold u ∧ u.mgmt.st = .off
      ∧ starts slot feed u)
    ∧ (∀ slot feed, s.mgmt.st ≠ .deepOff → exec (.wake slot feed) s = .next s)
    ∧ (∀ slot feed, s.mgmt.resetN = false → ∃ u, exec (.resetNRelease slot feed) s = .next u ∧ u.mgmt.resetN = true
      ∧ u.mgmt.st = s.mgmt.st ∧ (s.mgmt.standby = true → starts slot feed u) ∧ u.tiles = s.tiles)
    ∧ (s.mgmt.standby = true → ∃ u, exec .inputLoss s = .next u ∧ cold u ∧ u.mgmt.st = .off ∧ u.mgmt.standby = false)

/-- In service a lost root stops the engine (R329). A round of checks is counted once a second of global time; a result out
of tolerance is counted and kept (R338); a measurement that a stretch or a switching gap disturbed is made again, and the
Keystone's counter holds the last one (R337). Enabling a gate node is always carried out, disabling only while no child is
enabled; a refusal changes nothing but the event's count (R334). The beacon carries the master's time every 100 µs; a copy
within 1 µs of the beacon's result is slewed, one behind by more takes the result, one ahead by more stands; none goes back
(R339, R340). -/
def Obligations.ClocksAndTime : Prop :=
  ∀ (s : State),
    (s.inService = true → ∃ u, exec .rootLost s = .next u ∧ u.mgmt.st = .halted ∧ u.tiles = [])
    ∧ (s.inService = false → exec .rootLost s = .next s)
    ∧ (∀ results, s.inService = true → s.clk.roundAt + 1000000000 ≤ s.clk.master →
      (∀ r ∈ results, s.measured r.1 = true → s.disturbed r.1 = false ∧ r.2 ≤ 0xFFFFFFFF ∧ s.clockOk r.1 r.2 = true) →
      ∃ u, exec (.clockCheck results) s = .next u ∧ u.tiles = s.tiles ∧ u.mgmt = s.mgmt ∧ u.status = s.status
        ∧ u.clk = { s.clk with roundAt := s.clk.master, rounds := min 65535 (s.clk.rounds + 1), again := [] })
    ∧ (∀ code count, s.inService = true → s.measured code = true → s.disturbed code = true →
      s.clk.roundAt + 1000000000 ≤ s.clk.master → exec (.clockCheck [(code, count)]) s = .next (s.modClk fun c =>
        { c with roundAt := c.master, rounds := min 65535 (c.rounds + 1), again := [code] }))
    ∧ (∀ code count, s.inService = true → s.clk.master < s.clk.roundAt + 1000000000 → s.clk.again.contains code = true →
      s.measured code = true → s.disturbed code = false → count ≤ 0xFFFFFFFF → s.clockOk code count = true →
      ∃ u, exec (.clockCheck [(code, count)]) s = .next u ∧ u.clk = { s.clk with again := s.clk.again.filter (· ≠ code) }
        ∧ (u.ks s.mgmt.active).counter.result = BitVec.ofNat 32 count
        ∧ (u.ks s.mgmt.active).counter.window = 1048576 ∧ (u.ks s.mgmt.active).counter.target = code)
    ∧ (∀ code count, s.inService = true → s.clk.roundAt + 1000000000 ≤ s.clk.master → s.measured code = true →
      s.disturbed code = false → s.clockOk code count = false → ∃ u, exec (.clockCheck [(code, count)]) s = .next u
        ∧ u.clk.faults = min 255 (s.clk.faults + 1) ∧ u.clk.last = code
        ∧ (code = s.rootCode → code < 0x50 → u.mgmt.st = .halted))
    ∧ (∀ node, nodeExists node = true → nodeCommanded node = true →
      exec (.gateCommand node true) s = .next (s.modClk fun c => { c with off := c.off.filter (· ≠ node) })
      ∧ (s.childOn node = false → exec (.gateCommand node false) s
          = .next (s.modClk fun c => { c with off := c.off.filter (· ≠ node) ++ [node] }))
      ∧ (s.childOn node = true → ∃ u, exec (.gateCommand node false) s = .next u ∧ u.clk = s.clk ∧ u.tiles = s.tiles
          ∧ u.mgmt = s.mgmt))
    ∧ (s.clk.running = true → s.inService = true → (∀ a, s.clk.beacon = some a → a + 100000 ≤ s.clk.master) →
      exec .gtimeBeacon s = .next (s.modClk fun c => { c with beacon := some c.master }))
    ∧ (∀ sent latency, s.clk.beacon = some sent →
      let result := sent * 65536 + latency * Config.period16 s.kiln.fstep
      (∀ f, f < 48 → s.qualified f = true → exec (.beaconArrive f sent latency) s = .next (s.modField f fun x =>
        { x with copy := (correctCopy x.copy result).1, pace := (correctCopy x.copy result).2 }))
      ∧ (∀ h, h < 4 → exec (.beaconArrive (48 + h) sent latency) s = .next (s.modPort h fun x =>
        { x with copy := (correctCopy x.copy result).1, pace := (correctCopy x.copy result).2 }))
      ∧ (∀ p, p < 32 → (tGet? s.vdt.ports p).isSome = true → exec (.beaconArrive (52 + p) sent latency) s
          = .next (s.modVport p fun x => { x with copy := (correctCopy x.copy result).1, pace := (correctCopy x.copy result).2 })))
    ∧ (∀ copy result : Nat, copy ≤ (correctCopy copy result).1
      ∧ (copy + 65536000 < result → correctCopy copy result = (result, .normal))
      ∧ (result + 65536000 < copy → correctCopy copy result = (copy, .hold))
      ∧ (copy < result → result ≤ copy + 65536000 → correctCopy copy result = (copy, .fast (result - copy)))
      ∧ (result < copy → copy ≤ result + 65536000 → correctCopy copy result = (copy, .slow (copy - result))))

/-- DL_Up with a trained rate and width makes the link up, and the port UP the first time or with Bus Master Enable; setting
Bus Master Enable on a live link makes it UP again (R258, R342, R356). A port that goes down counts it, answers every
operation of its own LINK_DOWN, puts its rings in DOWN with cause 8 and ends its sessions and streams; PERST does the same
and drops the link, its rise resets the configuration space (R356, R419, R434). -/
def Obligations.PortsUpAndDown : Prop :=
  ∀ (s : State) (h : Nat), h < 4 →
    let p := s.port h
    let down := fun (u : State) => (u.port h).state = .down ∧ (u.port h).outstanding = []
      ∧ (u.port h).downs = min 255 (p.downs + 1)
      ∧ (∀ r x, tGet? s.rings r = some x → x.port = h → ∃ y, tGet? u.rings r = some y ∧ y.state = .down ∧ y.cause = 8
          ∧ y.full = none)
      ∧ (∀ r, r ∉ s.ringsOf h → tGet? u.rings r = tGet? s.rings r)
      ∧ (∀ e ∈ u.sgr.sessions, e.2.tr ≠ .port h) ∧ (∀ e ∈ u.sgr.streams, e.1 / 4 ≠ h)
      ∧ (∀ g, g ≠ h → u.port g = s.port g)
    (∀ rate width, s.mgmt.pcieRails = true → p.perst = true → p.linkUp = false → p.state ≠ .failed → 1 ≤ rate → rate ≤ 3 →
      1 ≤ width → width ≤ 2 → ∃ u, exec (.pcieLinkUp h rate width) s = .next u ∧ (u.port h).linkUp = true
        ∧ (u.port h).trained = true ∧ (u.port h).rate = rate ∧ (u.port h).width = width
        ∧ (p.trained = false ∨ p.bme = true → (u.port h).state = .up) ∧ (∀ g, g ≠ h → u.port g = s.port g))
    ∧ (∃ u, exec (.busMasterEnableSet h) s = .next u ∧ (u.port h).bme = true
      ∧ (p.linkUp = true → p.state = .down → (u.port h).state = .up) ∧ (∀ g, g ≠ h → u.port g = s.port g))
    ∧ (p.state = .up → (∀ why, ∃ u, exec (.pcieLinkDown h why) s = .next u ∧ down u
          ∧ (why = .bmeCleared ∨ why = .flr → (u.port h).bme = false ∧ (u.port h).linkUp = p.linkUp)
          ∧ (why = .dlDown ∨ why = .hotReset → (u.port h).linkUp = false ∧ (u.port h).rate = 0))
      ∧ ∃ u, exec (.perstAssert h) s = .next u ∧ down u ∧ (u.port h).perst = false ∧ (u.port h).linkUp = false)
    ∧ (p.perst = false → exec (.perstDeassert h) s = .next (s.modPort h fun q =>
        { q with bme := false, msix := [], pendBits := 0, v0Due := false, perst := true }))

/-- An operation of space 4 in the hands of its Pier, the port UP: a PUT that its window admits leaves as writes cut at
4 KiB and is answered OK; another takes a free number, leaves as reads or an atomic and waits; one the window does not admit
is answered ADDRESS_FAULT. With the port not UP it is answered LINK_DOWN (R346, R348). A completion answers the operation
it is for with its data, or with the code of its status; a timeout answers UNCORRECTABLE, or faults the ring whose fetch it
was with cause 5 (R348, R355). -/
def Obligations.HostWindowTraffic : Prop :=
  ∀ (s : State) (h : Nat), h < 4 →
    (∀ p s', s.atPier h p = some s' → (p.op = .put ∨ p.op = .get ∨ p.op = .atomic ∨ p.op = .signal) →
      (s.portUp h = false → exec (.hostWindowOp h p) s = .next (s'.pierAnswer h p .linkDown))
      ∧ (s.portUp h = true → s.ringPut p = none →
        (s.winAdmits h p = false → exec (.hostWindowOp h p) s = .next (s'.pierAnswer h p .addressFault))
        ∧ (∀ w, s.winAdmits h p = true → tGet? s.windows (addrWin p.addr) = some w →
          (p.op = .put → exec (.hostWindowOp h p) s = .next ((s'.putOut h (hostReqs w p)).pierAnswer h p .ok))
          ∧ (∀ k, p.op ≠ .put → tFree (s.port h).outstanding 768 = some k → ∃ u, exec (.hostWindowOp h p) s = .next u
            ∧ tGet? (u.port h).outstanding k = some p ∧ (u.port h).out = (s'.port h).out ++ hostReqs w p
            ∧ u.tiles = s'.tiles))))
    ∧ (∀ w a n d, hostReqs w { op := .put, addr := a, len := n, data := d, srcKind := 0 } = (cut4k (w.base + addrWinOff a) n).map
        fun c => .write c.1 ((d.drop c.2.1).take c.2.2) w.noSnoop)
    ∧ (∀ a n, 0 < n → n ≤ 256 → ((cut4k a n).map (·.2.2)).sum = n
        ∧ ∀ c ∈ cut4k a n, c.1 = a + c.2.1 ∧ c.1 / 4096 = (c.1 + c.2.2 - 1) / 4096)
    ∧ (∀ k p, tGet? (s.port h).outstanding k = some p →
      let s1 := s.modPort h fun q => { q with outstanding := tDel q.outstanding k }
      (∀ bs, p.op = .get → exec (.hostCompletion h k (.data bs)) s = .next (s1.pierReply h p fun u =>
          getResp s.mgmt.engId u p ((bs ++ List.replicate p.len 0).take p.len)))
      ∧ (∀ bs, p.op = .atomic → exec (.hostCompletion h k (.data bs)) s
          = .next (s1.pierAnswer h p .ok (BitVec.ofNat 64 (leNat (bs.take 8)))))
      ∧ (exec (.hostCompletion h k .unsupported) s = .next (s1.pierAnswer h p .addressFault)
        ∧ exec (.hostCompletion h k .abort) s = .next (s1.pierAnswer h p .addressFault)
        ∧ exec (.hostCompletion h k .poisoned) s = .next (s1.pierAnswer h p .uncorrectable)
        ∧ exec (.hostCompletion h k .ecrc) s = .next (s1.pierAnswer h p .uncorrectable))
      ∧ (k < 768 → exec (.completionTimeout h k) s = .next (s1.pierAnswer h p .uncorrectable)))
    ∧ (∀ r x, tGet? s.rings r = some x → x.port = h → x.fetching = true → ∃ u,
      exec (.completionTimeout h (1024 + r)) s = .next u
        ∧ tGet? u.rings r = some { x with state := .faulted, cause := 5, fetching := false } ∧ u.tiles = s.tiles)

/-- A doorbell or a poll presents the host index of a ring that is UP: an index beyond the ring is cause 4, else the entries
up to it are written (R351). A fetched entry with the wrong sequence number faults the ring with cause 1; a refused one
completes with cause 2; a good one is in delivery, its SEND among the operations of the Pier's bulk mover (R349, R350). An
answer is its operation's, RETRY is noted, and one for no operation in flight changes nothing of the ring (R218, R219). With
the last answer OK the entry is complete. A delivery refused by SPAN_RESET or READER_GONE puts the ring in HELD at that entry,
another failure, no answer in 67,108,864 cycles, or WAIT_MS without credits, in FAULTED, and the flow stops (R219, R224,
R352); HELD ends when the span runs again, with a reset of that flow.
STOP ends fetching, RESUME goes on, RESTART counts from 0 (R355). -/
def Obligations.RingsDeliver : Prop :=
  ∀ (s : State) (r : Nat) (x : Ring), r < 256 → tGet? s.rings r = some x →
    let h := x.port
    let rings := fun (u : State) (y : Ring) => tGet? u.rings r = some y ∧ ∀ q, q ≠ r → tGet? u.rings q = tGet? s.rings q
    let ni := (s.port h).ni
    let to_ := fun (t : Nat) => Dest.tile s.mgmt.engId t
    let quiet := ∀ o ∈ ni.ops, o.inFlight = true
    let far := fun (v : Nat) => (v + 65536 - x.index % 65536) % 65536
    (∀ v : BitVec 32, x.kind ≠ 2 → s.portUp h = true →
      let i := v.toNat % 65536
      (2 ^ x.log2 < far i → ∃ u, exec (.hostDoorbell h r v) s = .next u ∧ rings u { x with prompt := true, cause := 4 })
      ∧ (far i ≤ 2 ^ x.log2 → ∃ u f, exec (.hostDoorbell h r v) s = .next u ∧ rings u { x with
          prompt := true, fetching := f, hostIdx := max x.hostIdx (x.n + (i + 65536 - x.n % 65536) % 65536) } ∧ u.tiles = s.tiles))
    ∧ (x.kind ≠ 2 → x.state = .running → s.portUp h = true → x.prompt = true →
      (∃ u, exec (.ringPoll r none) s = .next u ∧ rings u
        { x with prompt := false, lastPollAt := s.time, state := .faulted, cause := 5, fetching := false })
      ∧ (∀ v, v < 65536 → far v ≤ 2 ^ x.log2 → ∃ u f, exec (.ringPoll r (some v)) s = .next u ∧ rings u { x with
          prompt := false, lastPollAt := s.time, fetching := f
          hostIdx := max x.hostIdx (x.n + (v + 65536 - x.n % 65536) % 65536) }))
    ∧ (x.fetching = true →
      (∃ u, exec (.ringEntryFetched r .failed) s = .next u
        ∧ rings u { x with state := .faulted, cause := 5, fetching := false })
      ∧ (∀ m d,
        let bs := readAt m (x.slotAt x.n) x.slotSize
        let s1 := s.modRing r fun x => { x with fetching := false }
        (bitsN (entryWord bs 0) 0 16 ≠ (x.n + 1) % 65536 → ∃ u, exec (.ringEntryFetched r (.bytes m d)) s = .next u
          ∧ rings u { x with state := .faulted, cause := 1, fetching := false })
        ∧ (bitsN (entryWord bs 0) 0 16 = (x.n + 1) % 65536 → s1.entryBad x bs = true → quiet → ∃ u y,
            exec (.ringEntryFetched r (.bytes m d)) s = .next u ∧ rings u y ∧ y.n = x.n + 1
              ∧ y.index = (x.index + 1) % 2 ^ 32 ∧ y.cause = 2)
        ∧ (bitsN (entryWord bs 0) 0 16 = (x.n + 1) % 65536 → s1.entryBad x bs = false → quiet → x.kind = 0 →
            (s.attachFor (.pcie h) x.target).isSome = true → ni.allStopped = false → ni.failed.contains (to_ x.target) = false →
            (∀ e ∈ ni.stopped, e.1 ≠ to_ x.target) → ∃ u y,
            exec (.ringEntryFetched r (.bytes m d)) s = .next u ∧ tGet? u.rings r = some y ∧ y.n = x.n + 1
              ∧ y.index = x.index ∧ (∃ e ∈ y.flight, e.n = x.n ∧ e.dest = x.target ∧ e.left = [ni.serial])
              ∧ ∃ o ∈ (u.port h).ni.ops, o.ring = some (r, x.n) ∧ o.kind = .send ∧ o.dest = to_ x.target
                ∧ o.opnd = bs.take (bitsN (entryWord bs 0) 16 9))))
    ∧ (∀ p s' k o i, s.atPier h p = some s' → p.op = .resp → answered p ni.ops = some k → ni.ops[k]? = some o →
      answerFits o p = true →
      (p.code ≠ .retry → exec (.ringDeliveryAnswer r i (some p)) s = .next ((s'.pierAnswered h k o p.code).ringPump r))
      ∧ (p.code = .retry → exec (.ringDeliveryAnswer r i (some p)) s
          = .next ((s'.setPop h k { o with st := .retry s.now }).ringPump r)))
    ∧ (∀ p s' i, s.atPier h p = some s' → p.op = .resp → answered p ni.ops = none →
      exec (.ringDeliveryAnswer r i (some p)) s = .next (s'.ringPump r))
    ∧ (∀ o n d, ni.ops = [o] → o.ring = some (r, n) → o.doomed = false → x.flight.find? (·.n = n) = some d →
      (∀ p s' i, s.atPier h p = some s' → p.op = .resp → answered p ni.ops = some 0 → answerFits o p = true →
        (p.code = .ok → d.left = [o.serial] → ∃ u y, exec (.ringDeliveryAnswer r i (some p)) s = .next u ∧ rings u y
          ∧ y.flight = x.flight.filter (·.n ≠ n) ∧ y.index = (x.index + 1) % 2 ^ 32 ∧ (u.port h).ni.ops = [])
        ∧ (p.code = .spanReset ∨ p.code = .readerGone → ∃ u y, exec (.ringDeliveryAnswer r i (some p)) s = .next u ∧ rings u y
          ∧ y.state = .held ∧ y.n = d.n ∧ y.heldOn = d.dest ∧ y.resets = true ∧ y.flight = x.flight.filter fun e => e.n < d.n)
        ∧ (p.code.isFailure = true → p.code ≠ .spanReset → p.code ≠ .readerGone → p.code ≠ .qfullTimeout → ∃ u y,
          exec (.ringDeliveryAnswer r i (some p)) s = .next u ∧ rings u y ∧ y.state = .faulted ∧ y.cause = 6 ∧ y.n = d.n)
        ∧ (p.code.isFailure = true → p.code ≠ .flowStopped → ni.stopped.length < 16 → ∃ u,
          exec (.ringDeliveryAnswer r i (some p)) s = .next u ∧ (u.port h).ni.stopped = ni.stopped ++ [(o.dest, o.vc, p.code)]))
      ∧ (∀ a, d.left.contains o.serial = true → o.st = .requested → d.since = some a → a + Config.ms x.waitMs ≤ s.time →
        ∃ u y, exec (.ringDeliveryAnswer r n none) s = .next u ∧ rings u y ∧ y.state = .faulted ∧ y.cause = 7 ∧ y.n = d.n)
      ∧ (∀ a, d.left.contains o.serial = true → o.st = .sent a → a + 67108864 ≤ s.now →
        ∃ u y, exec (.ringDeliveryAnswer r n none) s = .next u ∧ rings u y ∧ y.state = .faulted ∧ y.cause = 6 ∧ y.n = d.n))
    ∧ (∀ n, s.spanOf x.heldOn = some n → x.state = .held → (s.span n).state = .running → x.flight = [] → x.stopping = false →
      ni.ops = [] → ∃ u f, exec (.ringHeldResume r) s = .next u
        ∧ rings u { x with state := .running, resets := false, fetching := f }
        ∧ (x.resets = true → ∀ e ∈ (u.port h).ni.stopped, e.1 ≠ to_ x.heldOn))
    ∧ (∀ v : BitVec 32, s.portUp h = true →
      (v.toNat % 8 = 1 → x.state = .running → ∃ u, exec (.ringStop h r v) s = .next u ∧ rings u (if x.flight = [] ∧ x.fetching = false
        then { x with state := .stopped, stopping := false } else { x with stopping := true }))
      ∧ (v.toNat % 8 = 2 → x.resumable = true → x.flight = [] → x.stopping = false → ni.ops = [] → ∃ u f,
        exec (.ringResume h r v) s = .next u ∧ rings u { x with state := .running, resets := false, fetching := f })
      ∧ (v.toNat % 8 = 4 → x.resumable = true → ∃ u, exec (.ringRestart h r v) s = .next u
        ∧ rings u { x with state := .running, n := 0, index := 0, hostIdx := 0, flight := [], resets := false } ∧ u.tiles = s.tiles
        ∧ (u.port h).out = (s.port h).out ++ [.write (x.ctl + 4) [0, 0, 0, 0] false]))

/-- A PUT to a ring window with room: body, trailer with k + 1 and the sender, then k + 1 to CTL word 1; the ring's count
advances. A full ring keeps the PUT and reads the host index each microsecond until there is room; after WAIT_MS the PUT is
answered ADDRESS_FAULT, cause 3, and the ring stays RUNNING (R353). A vector held back by moderation is sent when its
interval ends (R354). -/
def Obligations.CompletionRings : Prop :=
  ∀ (s : State) (r : Nat) (x : Ring), r < 256 → tGet? s.rings r = some x →
    let h := x.port
    let writes := fun (n : Nat) (p : Packet) (u : State) => ∃ y l, tGet? u.rings r = some y ∧ y.n = n + 1 ∧ y.full = none
      ∧ y.index = (n + 1) % 2 ^ 32
      ∧ (u.port h).out = (s.port h).out ++ [.write (x.slotAt n) p.data false,
          .write (x.slotAt n + x.body) (leBytes 4 ((n + 1) % 2 ^ 32) ++ leBytes 4 p.srcTile) false,
          .write (x.ctl + 4) (leBytes 4 (n + 1)) false] ++ l
    (∀ p s', h < 4 → s.portUp h = true → s.ringPut p = some r → s.atPier h p = some s' → x.full = none → x.state = .running →
      (x.isFull = false → ∃ u, exec (.completionRingPut h p) s = .next u ∧ writes x.n p u)
      ∧ (x.isFull = true → exec (.completionRingPut h p) s
          = .next (s'.modRing r fun x => { x with full := some (p, s.time), lastPollAt := s.time })))
    ∧ (∀ p a idx, x.full = some (p, a) → x.kind = 2 → x.lastPollAt + Config.us 1 ≤ s.time → s.portUp h = true →
      let y := { x with lastPollAt := s.time, hostIdx := idx % 2 ^ 32 }
      (y.isFull = true → exec (.completionRingPoll r idx) s = .next (s.modRing r fun _ => y))
      ∧ (y.isFull = false → ∃ u, exec (.completionRingPoll r idx) s = .next u ∧ writes x.n p u))
    ∧ (∀ p a, x.full = some (p, a) → a + Config.ms x.waitMs ≤ s.time → ∃ u, exec (.completionRingFull r) s = .next u
      ∧ tGet? u.rings r = some { x with full := none, cause := 3 })
    ∧ (∀ v, x.unannounced = true → x.msix = some v → (∀ a, x.lastMsix = some a → a + Config.us x.modUs ≤ s.time) → ∃ u,
      exec (.msixModeration r) s = .next u ∧ tGet? u.rings r = some { x with lastMsix := some s.time, unannounced := false }
        ∧ ((s.port h).maskedVec v = false → (u.port h).out = (s.port h).out ++ [.msix v])
        ∧ ((s.port h).maskedVec v = true → v < 64 → (u.port h).pendBits.getLsbD v = true))

/-- Training that ends within 10 s opens the 100 ms window, one that does not fails the port (R277, R363). At the window's
end the widest qualified group of lanes is used: 16 lanes UP, 8 or 4 lanes DEGRADED, none FAILED with DEGR_VDT (R277, R360,
Table 17.1). A frame resent 4 times, or more than 1,000 replays in a second, takes a running port down for one retraining,
its frames and credits reset and each of its pairs due out of service (R363, R370). READY may follow (R256). -/
def Obligations.ViaductPortLife : Prop :=
  ∀ (s : State) (p : Nat), p < 32 →
    let x := s.vport p
    let others := fun (u : State) => ∀ q, q ≠ p → u.vport q = s.vport q
    let failed := fun (v : State) => (v.vport p).state = .failed ∧ (v.vport p).width = 0 ∧ (v.vport p).waiting = []
      ∧ (v.vport p).replay = [] ∧ v.mgmt.degrVdt = true ∧ others v
      ∧ ∀ q ∈ s.allPairs, q.2.2.1 = p → v.pairOut q.1 q.2.1 = true
    let retrains := fun (u : State) => (u.vport p).state = .training ∧ (u.vport p).retraining = true
      ∧ (u.vport p).trainAt = s.time ∧ (u.vport p).waiting = [] ∧ (u.vport p).replay = [] ∧ (u.vport p).nextSeq = 0
      ∧ (u.vport p).credits = [256, 256, 256] ∧ others u
      ∧ ∀ q ∈ s.allPairs, q.2.2.1 = p → u.pairOut q.1 q.2.1 = true
    (x.state = .training → x.windowAt = none → s.mgmt.vdtRails = true → s.time ≤ x.trainAt + Config.sec 10 →
      exec (.viaductTrainingDone p) s = .next (s.setVport p { x with windowAt := some s.time }))
    ∧ (x.state = .training → x.windowAt = none → x.trainAt + Config.sec 10 ≤ s.time → ∃ v : State,
      exec (.trainingTimeout p) s = .next v.tryReady ∧ failed v)
    ∧ (∀ a lanes, x.windowAt = some a → x.state = .training → a + Config.ms 100 ≤ s.time →
      let uses := fun (st : VdtState) (w : Nat) (used : BitVec 16) => ∃ v : State, exec (.qualifyWindowEnd p lanes) s = .next v.tryReady
        ∧ v.vport p = { x with qual := lanes, windowAt := none, state := st, width := w, used := used, retraining := false }
        ∧ others v
      let has := fun (g : BitVec 16) => g &&& lanes = g
      (lanes = 0xFFFF → uses .up 3 0xFFFF)
      ∧ (lanes ≠ 0xFFFF → has 0x00FF → uses .degraded 2 0x00FF)
      ∧ (¬ has 0x00FF → has 0xFF00 → uses .degraded 2 0xFF00)
      ∧ (¬ has 0x00FF → ¬ has 0xFF00 → has 0x000F → uses .degraded 1 0x000F)
      ∧ (¬ has 0xFF00 → ¬ has 0x000F → has 0x00F0 → uses .degraded 1 0x00F0)
      ∧ (¬ has 0xFF00 → ¬ has 0x000F → ¬ has 0x00F0 → has 0x0F00 → uses .degraded 1 0x0F00)
      ∧ (¬ has 0x000F → ¬ has 0x00F0 → ¬ has 0x0F00 → has 0xF000 → uses .degraded 1 0xF000)
      ∧ (¬ has 0x000F → ¬ has 0x00F0 → ¬ has 0x0F00 → ¬ has 0xF000 → ∃ v : State,
        exec (.qualifyWindowEnd p lanes) s = .next v.tryReady ∧ failed v))
    ∧ (x.state = .up ∨ x.state = .degraded → ((∃ r ∈ x.replay, 4 ≤ r.2.2) → ∃ u,
        exec (.frameResendLimit p) s = .next u ∧ retrains u)
      ∧ (1000 < (x.replayTimes.filter fun a => s.clk.master < a + 1000000000).length → ∃ u,
        exec (.replayRateLimit p) s = .next u ∧ retrains u))

/-- A frame with a FEC error counts an uncorrectable frame; it, a CRC error and a wrong sequence number discard the frame, and
one NAK goes out until the expected frame arrives. A data frame in order delivers its packets and is acknowledged; a frame's
ACK drops the kept frames it covers, its credits are added, its NAK resends every kept frame (R362, R364). -/
def Obligations.FramesReceived : Prop :=
  ∀ (s : State) (p : Nat) (fr : Frame), p < 32 →
    let x := s.vport p
    let goes := fun (g : VdtPort → Prop) => ∃ u, exec (.viaductFrameReceive p fr) s = .next u ∧ g (u.vport p)
      ∧ (∀ q, q ≠ p → u.vport q = s.vport q) ∧ u.tiles = s.tiles
    let discarded := fun (n : Nat) => goes fun y => y.uncorr = n ∧ y.expect = x.expect ∧ y.received = x.received
      ∧ y.nakSent = true ∧ y.replay = x.replay ∧ (x.nakSent = true → y.out = x.out)
      ∧ (x.nakSent = false → ∃ f, y.out = x.out ++ [f] ∧ f.nak = true ∧ f.packets = [] ∧ f.slots = 0)
    x.state = .up ∨ x.state = .degraded →
    (fr.fecOk = false → discarded (min 4095 (x.uncorr + 1)))
    ∧ (fr.fecOk = true → fr.crcOk = false → discarded x.uncorr)
    ∧ (fr.fecOk = true → fr.slots ≠ 0 → fr.fseq ≠ x.expect → discarded x.uncorr)
    ∧ (fr.fecOk = true → fr.slots = 0 → (fr.fseq + 1) % 4096 ≠ x.expect → discarded x.uncorr)
    ∧ (fr.fecOk = true → fr.crcOk = true → fr.slots ≠ 0 → fr.fseq = x.expect → goes fun y =>
        y.expect = (x.expect + 1) % 4096 ∧ y.received = x.received ++ fr.packets ∧ y.nakSent = false
          ∧ ∃ l f, y.out = l ++ [f] ∧ f.packets = [] ∧ f.nak = false ∧ f.ack = fr.fseq % 4096)
    ∧ (fr.fecOk = true → fr.crcOk = true → fr.slots = 0 → (fr.fseq + 1) % 4096 = x.expect → x.waiting = [] → goes fun y =>
        y.expect = x.expect ∧ y.received = x.received ∧ y.nakSent = x.nakSent
          ∧ y.credits = (List.range 3).map (fun v => x.credits.getD v 0 + fr.credits.getD v 0)
          ∧ (fr.nak = false → y.out = x.out ∧ y.replay = ackTo fr.ack x.replay)
          ∧ (fr.nak = true → y.out.map (·.fseq) = x.out.map (·.fseq) ++ (ackTo fr.ack x.replay).map (·.1)
              ∧ y.replay = (ackTo fr.ack x.replay).map fun r => (r.1, r.2.1, r.2.2 + 1)))

/-- A packet for another engine is discarded, a request answered UNREACHABLE to its sender; an answer to a parity operation
ends it; any other packet is injected for its tile, or held behind the requests of an older route epoch (R369, R370). A
returned packet is answered UNREACHABLE or discarded and counted, and its pair goes out of service (R371). -/
def Obligations.FabricPackets : Prop :=
  ∀ (s s' : State) (p : Nat) (k : Packet), p < 32 → s.takeReceived p k = some s' →
    (k.ret = false → k.op.pierOnly = false →
      (k.deng ≠ s.mgmt.engId → k.op.isRequest = false → exec (.viaductPacketReceive p k) s = .next s')
      ∧ (k.deng ≠ s.mgmt.engId → k.op.isRequest = true → k.op ≠ .putReduce → ∃ r : Packet,
          exec (.viaductPacketReceive p k) s = .next (s'.vdtSend p r) ∧ r.op = .resp ∧ r.code = .unreachable
            ∧ r.opid = k.opid ∧ r.deng = k.seng ∧ r.rdest = k.srcTile ∧ r.vc = 1)
      ∧ (k.deng = s.mgmt.engId → k.op = .resp → k.srcKind = 2 →
          exec (.viaductPacketReceive p k) s = .next (s'.parityAnswered k))
      ∧ (k.deng = s.mgmt.engId → ¬ (k.op = .resp ∧ k.srcKind = 2) →
          let t := if k.op.isRequest && k.op ≠ .creditReq then addrTile k.addr else k.dest
          (s.mustHold p t = true → exec (.viaductPacketReceive p k) s = .next s)
          ∧ (s.mustHold p t = false → ∃ u, exec (.viaductPacketReceive p k) s = .next u
              ∧ u.tiles = (s'.edgeSend (.vdt p) t { k with dest := t, out := false, waypoint := 0, wpv := false, dcnt := 0 }).tiles
              ∧ (k.op.isRequest = false → u.vport p = s'.vport p)
              ∧ (k.op.isRequest = true → k.op ≠ .putReduce → u.vport p = { s'.vport p with
                  injected := (s'.vport p).injected ++ [⟨t, k.srcEng, k.srcTile, k.opid, s.routes.epoch, s.now⟩] }))))
    ∧ (k.ret = true → ∃ u, exec (.returnedPacket p k) s = .next u
        ∧ (∀ q ∈ s.allPairs, q.1 = k.deng → q.2.2.1 = p → q.2.2.2 = k.dport → u.pairOut q.1 q.2.1 = true)
        ∧ (k.op.isRequest = true → u.tiles = (s'.vdtAnswer p k .unreachable).tiles)
        ∧ (k.op.isRequest = false → k.op.pierOnly = false → u.tiles = (s'.modFirstTile p (·.count cAnsDisc 1)).tiles))

/-- A due HELLO leaves by its pair and opens a wait of 1 ms; one that arrives is answered by HELLO_ACK through the pair of its
sender (R371). An answer from the pair's engine within 1 ms puts the pair in service and makes the feed check of its groups;
one that names another engine, or none at all, takes it out (R371, R402). The changes due become one change of routes whose
third step makes them (R370). -/
def Obligations.PairsInService : Prop :=
  ∀ (s : State),
    (∀ e i lp rp, s.pair e i = some (lp, rp) → (s.vport lp).state.runs = true →
      (s.vdt.hellos.any fun h => h.1 = e && h.2.1 = i) = false →
      (tGet? s.vdt.helloAt (4 * e + i) = none
        ∨ s.pairOut e i = true ∧ tGet 0 s.vdt.helloAt (4 * e + i) + Config.sec 1 ≤ s.time) →
      ∃ (v : State) (k : Packet), exec (.hello e i) s = .next (v.vdtSend lp k) ∧ k.op = .hello ∧ k.deng = e ∧ k.dport = rp ∧ k.seng = s.vdt.selfId
        ∧ v.vdt.hellos = s.vdt.hellos ++ [(e, i, s.time)] ∧ tGet? v.vdt.helloAt (4 * e + i) = some s.time
        ∧ v.vport lp = s.vport lp)
    ∧ (∀ p k s', p < 32 → s.takeReceived p k = some s' → k.ret = false → k.deng = s.mgmt.engId →
      (k.op = .hello → ∀ q, s.allPairs.find? (fun q => q.1 = k.seng && q.2.2.1 = p) = some q → ∃ r : Packet,
        exec (.helloReceive p k) s = .next (s'.vdtSend p r) ∧ r.op = .helloAck ∧ r.deng = k.seng ∧ r.dport = q.2.2.2
          ∧ (s.mgmt.glostDone = true → r.sub = BitVec.ofNat 4 s.mgmt.feedId))
      ∧ (k.op = .helloAck →
        let waits := s.vdt.hellos.filter fun h => s.time ≤ h.2.2 + Config.ms 1 && (s.pair h.1 h.2.1).any (·.1 = p)
        (∀ h, waits.find? (·.1 = k.seng) = some h → ∃ u, exec (.helloAck p k) s = .next u ∧ u.pairOut h.1 h.2.1 = false
          ∧ h ∉ u.vdt.hellos
          ∧ ∀ (j : Nat) (g : Sys2Proof.Machine.Group), s.ckpt.groups[j]? = some g → g.members.contains h.1 = true → g.checked.contains h.1 = false →
            s.mgmt.glostDone = true → ∃ g' : Sys2Proof.Machine.Group, u.ckpt.groups[j]? = some g' ∧ g'.checked = g.checked ++ [h.1]
              ∧ g'.refused = (g.refused || decide (k.sub.toNat = s.mgmt.feedId)))
        ∧ (∀ h l, waits = h :: l → waits.find? (·.1 = k.seng) = none → ∃ u, exec (.helloAck p k) s = .next u
          ∧ u.pairOut h.1 h.2.1 = true ∧ h ∉ u.vdt.hellos)))
    ∧ (∀ e i h, s.vdt.hellos.find? (fun h => h.1 = e && h.2.1 = i) = some h → h.2.2 + Config.ms 1 < s.time → ∃ u,
      exec (.helloTimeout e i) s = .next u ∧ u.pairOut e i = true ∧ h ∉ u.vdt.hellos)
    ∧ (s.vdt.change ≠ [] → s.routes.change = none → s.mgmt.ksReset = none → ∃ c, exec .pairChange s = .next { s with
        routes := { s.routes with change := some c }, vdt := { s.vdt with change := [] } }
          ∧ c.pairs = s.vdt.change ∧ c.epoch = (s.routes.epoch + 1) % 4)

/-- Each 100 µs of master time a TIME_REQ leaves by pair 0 of the master in use; after 10 without an answer the backup is
used, or, on the backup itself, none (R373). A TIME_REQ is answered with t2 and t3. A TIME_RESP sets the offset
((t2 − t1) + (t3 − t4)) / 2: beyond 1,000 ns ahead the clock steps, beyond 1,000 behind it holds, and the trim stays within
its bound (R340, R373). The trim's value is free (log 19). -/
def Obligations.TimeFollowsMaster : Prop :=
  ∀ (s : State),
    let v := s.vdt
    let m := if v.t1.isSome then v.missed + 1 else 0
    (v.present = true → v.selfId ≠ v.master → v.src ≠ 3 → v.exchangeAt + 100000 ≤ s.clk.master → ∃ u,
      exec .timeExchange s = .next u ∧ u.vdt.exchangeAt = s.clk.master ∧ u.clk = s.clk
        ∧ (m < 10 ∨ v.src = 2 → u.vdt.src = v.src ∧ u.vdt.missed = m
            ∧ ∀ lp rp, s.pair v.masterNow 0 = some (lp, rp) → u.vdt.t1 = some ((s.vport lp).copy / 65536))
        ∧ (10 ≤ m → v.src ≠ 2 → v.backup ≠ v.selfId → u.vdt.src = 2 ∧ u.vdt.missed = 0)
        ∧ (10 ≤ m → v.src ≠ 2 → v.backup = v.selfId → u.vdt.src = 3 ∧ u.vdt.t1 = none ∧ u.vdt.ports = v.ports))
    ∧ (∀ p k s', p < 32 → s.takeReceived p k = some s' → k.ret = false → k.deng = s.mgmt.engId →
      (k.op = .timeReq → ∀ q, s.allPairs.find? (fun q => q.1 = k.seng && q.2.2.1 = p) = some q → ∃ r : Packet,
        exec (.timeReq p k) s = .next (s'.vdtSend p r) ∧ r.op = .timeResp ∧ r.deng = k.seng ∧ r.dport = q.2.2.2
          ∧ r.data = leBytes 8 ((s.vport p).copy / 65536) ++ leBytes 8 ((s.vport p).copy / 65536))
      ∧ (k.op = .timeResp → ∀ t1 rp, v.t1 = some t1 → k.seng = v.masterNow → s.pair k.seng 0 = some (p, rp) →
        let off : Int := (((leNat (k.data.take 8) : Int) - t1)
          - (((s.vport p).copy / 65536 : Nat) - (leNat ((k.data.drop 8).take 8) : Int))) / 2
        ∃ u, exec (.timeResp p k) s = .next u ∧ u.vdt.t1 = none ∧ u.vdt.missed = 0
          ∧ u.vdt.offset = max (-32767) (min 32767 off) ∧ (v.src = 2 → u.vdt.src = 2) ∧ (v.src ≠ 2 → u.vdt.src = 1)
          ∧ -16384 ≤ u.clk.trim ∧ u.clk.trim ≤ 16384
          ∧ (1000 < off → u.clk.master = s.clk.master + off.toNat ∧ u.clk.hold = 0)
          ∧ (off < -1000 → u.clk.master = s.clk.master ∧ u.clk.hold = off.natAbs)
          ∧ (-1000 ≤ off → off ≤ 1000 → u.clk.master = s.clk.master ∧ u.clk.hold = s.clk.hold)))

/-- Before service an expired watchdog passes the role, or, without a peer, the engine enters SAFE with cause 3 (R256). In
service the Keystone is reset, once in 60 s; a second expiry, a firmware digest that no longer agrees, or a reset longer than
2 s stops the engine in HALTED, each with its KIND 1 record (R384). A reset that ends restarts span watchdogs and begins the
work that fell due. -/
def Obligations.KeystoneRecovers : Prop :=
  ∀ (s : State),
    let m := s.mgmt
    let halts := fun (u : State) (arg : Nat) => u.mgmt.st = .halted ∧ ∃ r, u.status.log.getLast? = some r ∧ r.kind = 1 ∧ r.sev = 3 ∧ r.arg = arg
    ((m.st = .bisque ∨ m.st = .glost ∨ m.st = .rom ∧ m.elected = true ∧ m.recovery = false) → ∃ u,
      exec .keystoneWatchdog s = .next u
        ∧ (m.peer = true → u.mgmt.active = m.active.other ∧ u.mgmt.peer = false ∧ u.mgmt.degrKs = true ∧ u.tiles = []
            ∧ u.mgmt.st = (if m.st = .rom then .rom else .bisque))
        ∧ (m.peer = false → u.mgmt.st = .safe ∧ u.mgmt.safeCause = 3))
    ∧ (s.inService = true → m.ksReset = none →
      ((∀ a, m.lastKsReset = some a → a + 60000000000 ≤ s.clk.master) → ∃ u r, exec .keystoneWatchdog s = .next u
        ∧ u.mgmt.ksReset = some s.time ∧ u.mgmt.lastKsReset = some s.clk.master ∧ u.mgmt.ksResets = min 255 (m.ksResets + 1)
        ∧ u.status.log.getLast? = some r ∧ r.kind = 1 ∧ r.sev = 2 ∧ r.arg = 1 ∧ u.tiles = s.tiles ∧ u.spans = s.spans)
      ∧ (∀ a, m.lastKsReset = some a → s.clk.master < a + 60000000000 → ∃ u,
        exec .keystoneWatchdog s = .next u ∧ halts u 2))
    ∧ (∀ a, m.ksReset = some a →
      (a + Config.sec 2 ≤ s.time → ∃ u, exec .keystoneResetTimeout s = .next u ∧ halts u 3)
      ∧ (Config.firmwareOk m.ksResets = false → ∃ u, exec .keystoneResetDone s = .next u ∧ halts u 4)
      ∧ (Config.firmwareOk m.ksResets = true → ∃ v : State, exec .keystoneResetDone s = .next v.beginAll
            ∧ v.mgmt = { m with ksReset := none } ∧ v.tiles = s.tiles
            ∧ ∀ n x, tGet? v.spans n = some x → x.wdog = 0 ∧ ∃ w, tGet? s.spans n = some { x with wdog := w }))

/-- A report of a dead link takes it into the live map and makes a route change due; an end tile with a live link left is
probed, one that is cut off is retired (R378, R380). A probe unanswered for 100 µs retires its tile: TILE_RETIRED, a fault of
its span due, a route change due, the tile held in reset (R378, R382). A port that has lost its last live attachment link
then goes down, `State.failCutOff` (R19, R357). -/
def Obligations.PartsAreRetired : Prop :=
  ∀ (s : State) (t : Nat), t < Config.nTiles →
    let gone := fun (u : State) => u.routes.fold = true
      ∧ (∃ e ∈ u.status.reports, e.code = 0x0804 ∧ e.tile = some t ∧ e.arg = 1)
      ∧ ∀ n, s.spanOf t = some n → SpanFaultCause.retired t ∈ (u.span n).faults
    (∀ d, s.mgmt.ksReset = none → (t, d) ∈ s.routes.deadLinks → ∃ u : State, exec (.linkDeadReport t d) s = .next u.failCutOff
      ∧ u.routes.fold = true ∧ u.routes.deadLinks = s.routes.deadLinks.filter (· ≠ (t, d))
      ∧ (s.usable t = true → s.cutOff t = false → tGet? u.routes.probes t = some s.time)
      ∧ (s.usable t = true → s.cutOff t = true → gone u))
    ∧ (∀ a, tGet? s.routes.probes t = some a → a + Config.us 100 ≤ s.time → ∃ u : State, exec (.probeTimeout t) s = .next u.failCutOff
      ∧ tGet? u.routes.probes t = none ∧ (s.usable t = true → gone u ∧ (u.tile t).held = true))

/-- GO with its key, on a port of the Keystone's own edge, starts CHECKING, or fails with cause 17 on a bad range; ABORT ends
CHECKING with cause 20 (R295, R296). The checks, the erase, the programming and the read-back follow; each failure has its
cause: 16 for host memory, the image's own, 18 for the flash, 19 for a read-back that differs, and one after the programming erases the blocks that LEN covers (log 23).
The image is read in requests of 4,096 bytes, after GO and again after the erase. The erase touches the blocks
of LEN and the status sector alone, the image is programmed from byte 0, and a newer SECVER is programmed into the lock areas
(R295, R413). The digest and the signature are free functions (log 8). -/
def Obligations.ImageReplaced : Prop :=
  ∀ (s : State) (k : Side),
    let x := s.ks k
    let r := x.rcv
    let quiet := fun (u : State) => u.tiles = s.tiles ∧ u.spans = s.spans
    let alone := fun (u : State) => quiet u ∧ u.ks k.other = s.ks k.other
    let enters := fun (u : State) (q : Rcv) (ph : RcvPhase) (fl : Mem) =>
      u.ks k = { x with rcv := { q with phase := ph, progress := 0, since := s.time }, flash := fl } ∧ alone u
    let fails := fun (u : State) (c : Nat) (fl : Mem) =>
      u.ks k = { x with rcv := { r with phase := .failed, cause := c, progress := r.elapsed s.time }, flash := fl } ∧ alone u
    let wiped := eraseFlash x.flash 0 (65536 * ceilDiv r.len 65536)
    (∀ h (v : BitVec 32), h < 4 → portSide h = k → (s.port h).linkUp = true → v.toNat / 65536 = 0xF1A5 →
      v.getLsbD 8 = true → v.getLsbD 9 = false →
      (s.mgmt.st = .rom ∧ s.mgmt.recovery = true ∨ s.inService = true) →
      (r.phase = .idle ∨ r.phase = .done ∨ r.phase = .failed) →
      (r.rangeOk = true → ∃ u, exec (.rcvGo k h v) s = .next u
        ∧ enters u { r with cause := 0, port := h } .checking x.flash
        ∧ (u.port h).out = (s.port h).out ++ reads4k r.addr.toNat r.len)
      ∧ (r.rangeOk = false → ∃ u, exec (.rcvGo k h v) s = .next u ∧ (u.ks k).rcv.phase = .failed ∧ (u.ks k).rcv.cause = 17
        ∧ (u.ks k).flash = x.flash ∧ (u.port h).out = (s.port h).out ∧ alone u))
    ∧ (∀ v : BitVec 32, v.toNat / 65536 = 0xF1A5 → v.getLsbD 9 = true → v.getLsbD 8 = false → r.phase = .checking →
      ∃ u, exec (.rcvAbort k v) s = .next u ∧ fails u 20 x.flash)
    ∧ (r.phase = .checking → (∃ u, exec (.rcvCheckDone k .failed) s = .next u ∧ fails u 16 x.flash) ∧ ∀ m d,
        let i := hostImage m r.addr.toNat r.len
        let c := imageCause i r.len s.sgr.secverDev s.mgmt.feedId
        (c ≠ 0 → ∃ u, exec (.rcvCheckDone k (.bytes m d)) s = .next u ∧ fails u c x.flash)
        ∧ (c = 0 → ∃ u, exec (.rcvCheckDone k (.bytes m d)) s = .next u
            ∧ enters u { r with digest := imgDigest i, secver := hdrSecver i } .erasing x.flash))
    ∧ (r.phase = .erasing →
      let fl := eraseFlash wiped statusSector 65536
      (∀ a, mRead erased fl a = if a < 65536 * ceilDiv r.len 65536 ∨ (0x7FE0000 ≤ a ∧ a < 0x7FF0000) then 0xFF
        else mRead erased x.flash a)
      ∧ (∃ u, exec (.rcvEraseDone k true) s = .next u ∧ enters u r .programming fl
          ∧ (u.port r.port).out = (s.port r.port).out ++ reads4k r.addr.toNat r.len)
      ∧ (∃ u, exec (.rcvEraseDone k false) s = .next u ∧ fails u 18 fl))
    ∧ (r.phase = .programming → (∀ ok, ∃ u, exec (.rcvProgramDone k .failed ok) s = .next u ∧ fails u 16 x.flash)
      ∧ (∀ m d, ∃ u, exec (.rcvProgramDone k (.bytes m d) false) s = .next u ∧ fails u 18 x.flash)
      ∧ ∀ m d, ∃ u fl, exec (.rcvProgramDone k (.bytes m d) true) s = .next u ∧ enters u r .readback fl
        ∧ ∀ a, mRead erased fl a = if a < r.len then tGet 0 m (r.addr.toNat + a) else mRead erased x.flash a)
    ∧ (∀ own other, r.phase = .readback →
        let c := imageCause x.flash 67108864 s.sgr.secverDev s.mgmt.feedId
        let same := imgDigest x.flash = r.digest
        let new := lockVersion x.lock < r.secver
        (¬ same → ∃ u, exec (.rcvReadbackDone k own other) s = .next u ∧ fails u 19 wiped)
        ∧ (same → c ≠ 0 → ∃ u, exec (.rcvReadbackDone k own other) s = .next u ∧ fails u c wiped)
        ∧ (same → c = 0 → ¬ new → ∃ u, exec (.rcvReadbackDone k own other) s = .next u ∧ enters u r .done x.flash)
        ∧ (same → c = 0 → new → ∃ u, exec (.rcvReadbackDone k false other) s = .next u ∧ fails u 18 wiped)
        ∧ (same → c = 0 → new → ∃ u, exec (.rcvReadbackDone k true other) s = .next u ∧ quiet u
            ∧ (u.ks k).rcv.phase = .done ∧ (u.ks k).flash = x.flash
            ∧ (u.ks k).lock = x.lock ||| BitVec.ofNat 256 (2 ^ r.secver - 2 ^ lockVersion x.lock)
            ∧ (other = false → u.ks k.other = s.ks k.other)))

/-- A publication writes the copy that is not current with the window of this moment and advances GEN, never twice in 10 µs;
the other copy keeps its words (R421, R422). A port that is up gets vector 0 when a record of SEV 2 or 3 is new, at most once
in 100 µs (R426). -/
def Obligations.WindowPublished : Prop :=
  ∀ (s : State), s.managed = true → s.mgmt.ksReset = none → (∀ a, s.status.pubAt = some a → a + Config.us 10 ≤ s.time) → ∃ u,
    exec .statusPublish s = .next u
      ∧ u.status.gen = (s.status.gen + 1) % 2 ^ 32 ∧ u.status.current = s.window ∧ u.status.pubAt = some s.time
      ∧ (u.status.gen % 2 = 0 → u.status.copy1 = s.status.copy1) ∧ (u.status.gen % 2 = 1 → u.status.copy0 = s.status.copy0)
      ∧ u.status.log = s.status.log ∧ u.tiles = s.tiles ∧ u.rings = s.rings
      ∧ ∀ h, h < 4 →
        let p := s.port h
        let tell := s.portUp h = true ∧ (s.status.alarm = true ∨ p.v0Due = true)
        let early := ∃ a, p.lastV0 = some a ∧ s.time < a + Config.us 100
        (¬ tell → u.port h = p)
        ∧ (tell → early → u.port h = { p with v0Due := true })
        ∧ (tell → ¬ early → p.maskedVec 0 = false →
            u.port h = { p with out := p.out ++ [.msix 0], v0Due := false, lastV0 := some s.time })
        ∧ (tell → ¬ early → p.maskedVec 0 = true → (u.port h).out = p.out ∧ (u.port h).pendBits.getLsbD 0 = true)

/-- The first report on its way is taken: a report that one of the 16 newest records takes, of the same code, source, tile
and span within 1 ms, adds its count to the newest such record; any other becomes a new record with the next number, and the
log keeps 2,048 (R423, R424). A QFULL_TIMEOUT whose partner has reported the reverse within 2 ms makes a DEADLOCK_SUSPECT
record (R238). -/
def Obligations.EventsAreLogged : Prop :=
  ∀ (s : State) (e : EventReport) (rs : List EventReport), s.status.reports = e :: rs → s.mgmt.ksReset = none →
    let now := s.clk.master
    ∃ u, exec (.eventReport e) s = .next u ∧ u.status.reports = rs ∧ u.tiles = s.tiles ∧ u.mgmt = s.mgmt
      ∧ (e.code ≠ 0x0401 → mergeReport e now s.status.log = none → ∃ r, u.status.log.getLast? = some r ∧ r.code = e.code
          ∧ r.src = e.src ∧ r.tile = e.tile ∧ r.field = e.field ∧ r.span = e.span ∧ r.arg = e.arg ∧ r.gtime = now ∧ r.kind = 0
          ∧ r.count = min 0xFFFFFFFF e.count ∧ r.seqNo = s.status.next % 2 ^ 32
          ∧ u.status.log.length = min 2048 (s.status.log.length + 1) ∧ u.status.next = (s.status.next + 1) % 2 ^ 32)
      ∧ (∀ l, mergeReport e now s.status.log = some l →
          (e.code ≠ 0x0401 → u.status.log = l ∧ u.status.next = s.status.next)
          ∧ ∃ j r, s.status.log[j]? = some r ∧ s.status.log.length ≤ j + 16 ∧ r.takes e now = true
            ∧ (∀ i q, j < i → s.status.log[i]? = some q → q.takes e now = false)
            ∧ l = s.status.log.set j { r with count := min 0xFFFFFFFF (r.count + e.count) })
      ∧ (∀ t a, e.code = 0x0401 → e.tile = some t → (e.arg, t, a) ∈ s.status.qfull → now ≤ a + 2000000 →
          (∀ d ∈ s.status.deadlocks, d.1 = t ∧ d.2.1 = e.arg ∨ d.1 = e.arg ∧ d.2.1 = t → d.2.2 + 2000000 < now) →
          (t, e.arg, now) ∈ u.status.deadlocks ∧ ∃ r ∈ u.status.log, r.code = 0x0406)

/-- A write of KST_PERF_CTRL takes its fields, or, refused, reads MODE 0 with ERR; with nothing running it takes effect at
once (R428). Each period of MODE 1 gives every answering tile's entry the differences of its counters; a tile that does not
answer keeps its entry, and an unusable one reads 0 (R429). Each period of MODE 2 gives each answering point its queue depths and counts it (R430). -/
def Obligations.PerformanceCollected : Prop :=
  ∀ (s : State),
    (∀ v : BitVec 32, (s.mgmt.st = .glost ∨ s.inService = true) →
      let n := v.toNat
      let p : PerfRun := ⟨n / 2 ^ 30, n / 2 ^ 18 % 4096, n / 2 ^ 11 % 128, n / 2 ^ 7 % 16, n / 2 ^ 3 % 16, 0⟩
      let bad := p.mode = 3 ∨ (p.mode ≠ 0 ∧ s.perfBad p = true)
      ∃ u, exec (.perfCtrlWrite v) s = .next u
        ∧ (bad → u.status.mode = 0 ∧ u.status.err = true)
        ∧ (¬ bad → u.status.mode = p.mode ∧ u.status.span = p.span ∧ u.status.period = p.period ∧ u.status.xstep = p.xstep
            ∧ u.status.ystep = p.ystep ∧ u.status.err = false)
        ∧ (s.status.run = none → u.status.newCtrl = false ∧ u.status.perf = [] ∧ u.status.periodNo = 0
            ∧ (u.status.run = none ↔ u.status.mode = 0))
        ∧ (s.status.run.isSome = true → u.status.newCtrl = true ∧ u.status.run = s.status.run ∧ u.status.perf = s.status.perf)
        ∧ u.tiles = s.tiles)
    ∧ (∀ p missing, s.status.run = some p → p.at_ + 1000 * p.period ≤ s.clk.master → s.mgmt.ksReset = none →
      (p.mode = 1 →
        let ts := (s.span p.span).layout.tiles
        ∃ u, exec (.counterCollection missing) s = .next u ∧ u.tiles = s.tiles
          ∧ (s.status.newCtrl = true → u.status.perf = [] ∧ u.status.periodNo = 0)
          ∧ (s.status.newCtrl = false → u.status.periodNo = s.status.periodNo + 1
            ∧ u.status.run = some { p with at_ := s.clk.master }
            ∧ tGet 0 u.status.perf 0x100000 = BitVec.ofNat 32 s.status.periodNo
            ∧ ∀ i t k, ts[i]? = some t → k < 16 →
              (s.usable t = false → tGet 0 u.status.perf (0x101000 + 64 * i + 4 * k) = 0)
              ∧ (s.usable t = true → t ∈ missing →
                tGet 0 u.status.perf (0x101000 + 64 * i + 4 * k) = tGet 0 s.status.perf (0x101000 + 64 * i + 4 * k))
              ∧ (s.usable t = true → t ∉ missing → (∀ j, j < i → ts[j]? ≠ some t) →
                tGet 0 u.status.perf (0x101000 + 64 * i + 4 * k) = cntPack (fun j =>
                  cntDiff j ((tGet [] s.status.prev t).getD j 0) (((List.range 31).map (s.tile t).cntField).getD j 0)) k)))
      ∧ (p.mode = 2 →
        let ps := (s.span p.span).layout.lattice p.xstep p.ystep
        ∃ u, exec (.queueDepthSample missing) s = .next u ∧ u.tiles = s.tiles
          ∧ (s.status.newCtrl = true → u.status.perf = [] ∧ u.status.periodNo = 0)
          ∧ (s.status.newCtrl = false → u.status.periodNo = s.status.periodNo + 1
            ∧ ∀ i x y, ps[i]? = some (x, y) →
              let t := tileId x y
              let w := fun (z : State) (o : Nat) => tGet 0 z.status.perf (0x101000 + 8 * i + o)
              (s.usable t = false ∨ t ∈ missing → w u 0 = w s 0 ∧ w u 4 = w s 4)
              ∧ (s.usable t = true → t ∉ missing →
                w u 0 = BitVec.ofNat 32 ((List.range 8).map fun q => (s.tile t).msgsOf q * 2 ^ (4 * q)).sum
                ∧ (w u 4).toNat / 65536 = ((w s 4).toNat / 65536 + 1) % 65536))))

/-- A write to BAR0 reaches KLN_CAP and KST_PERF_CTRL alone (R422). A read of BAR2 gives a ring's status word on the ring's own
port and the recovery registers of the port's Keystone; a write-only word reads 0 (R9, R294, R344). READ_WINDOW gives the words of the current copy with its
generation, 0x80 where a publication fell within it, 0x02 for a bad range; WRITE_WINDOW writes as a host does; WRITE_CONTROL
reaches KLN_CTRL and HOST_SPAN_CMD and answers 0x81 to any other number; the sensors are fields' temperatures and currents
and the input power (R438). The codes 0x02 and 0x80 of unknown arguments are presumed. -/
def Obligations.SidebandServes : Prop :=
  ∀ (s : State),
    (∀ off (v : BitVec 32),
      (off % 0x800000 = 0x1024 → (s.mgmt.st = .glost ∨ s.inService = true) → exec (.windowWrite off v) s
        = .next (s.modKiln fun k => { k with cap := max 4000 (min (polCap s.image) (v.toNat % 32768)) }))
      ∧ (off % 0x800000 = 0x1030 → ∃ u, exec (.perfCtrlWrite v) s = .next u ∧ exec (.windowWrite off v) s = .next u)
      ∧ (off % 0x800000 ≠ 0x1024 → off % 0x800000 ≠ 0x1030 → exec (.windowWrite off v) s = .next s))
    ∧ (∀ h r (x : Ring), tGet? s.rings r = some x → r < 256 → s.bar2Read h (0x1000 + 8 * r) = 0
      ∧ (x.port = h → s.bar2Read h (0x1004 + 8 * r) = x.n % 65536 * 65536 + x.cause * 256 + x.state.code)
      ∧ (x.port ≠ h → s.bar2Read h (0x1004 + 8 * r) = 0))
    ∧ (∀ h, let r := (s.ks (portSide h)).rcv
      s.bar2Read h 0xFF00 + 2 ^ 32 * s.bar2Read h 0xFF04 = r.addr.toNat ∧ s.bar2Read h 0xFF08 = r.len
      ∧ s.bar2Read h 0xFF0C = 0 ∧ s.bar2Read h 0xFF10 = r.elapsed s.time * 65536 + r.cause * 256 + r.phase.code)
    ∧ (s.managed = true →
      let answers := fun (c : Instr) (cc : Nat) (ws : List Word) => exec c s = .next (s.modStatus fun x =>
        { x with pldm := ⟨cc, x.gen, ws⟩ })
      (∀ off len crossed, off % 4 ≠ 0 ∨ len < 4 ∨ 1024 < len → answers (.readWindow off len crossed) 0x02 [])
      ∧ (∀ off len, off % 4 = 0 → 4 ≤ len → len ≤ 1024 → answers (.readWindow off len true) 0x80 []
        ∧ ∃ u, exec (.readWindow off len false) s = .next u ∧ s.status.read ≤ u.status.read
          ∧ u.status.pldm.cc = 0 ∧ u.status.pldm.gen = s.status.gen ∧ u.status.pldm.words.length = (len + 3) / 4
          ∧ ∀ i, i < (len + 3) / 4 → u.status.pldm.words[i]? = some (tGet 0 s.status.current (off + 4 * i)))
      ∧ (∀ off v, ∃ u, exec (.windowWrite off v) s = .next u
        ∧ exec (.writeWindow off v) s = .next (u.modStatus fun x => { x with pldm := ⟨0, x.gen, []⟩ }))
      ∧ (∀ num v, 2 ≤ num → answers (.writeControl num v) 0x81 [])
      ∧ (∀ v, let s0 := s.modStatus fun x => { x with pldm := ⟨0, x.gen, []⟩ }
        (∃ u, exec (.deepOffEntry v) s0 = .next u ∧ exec (.writeControl 0 v) s = .next u)
        ∧ (v.toNat / 4096 % 4 = 1 → ∃ u, exec (.hostSpanReset v) s0 = .next u ∧ exec (.writeControl 1 v) s = .next u)
        ∧ (v.toNat / 4096 % 4 = 2 → ∃ u, exec (.hostSpanRestart v) s0 = .next u ∧ exec (.writeControl 1 v) s = .next u)
        ∧ (v.toNat / 4096 % 4 = 3 → ∃ u, exec (.hostSpanStart v) s0 = .next u ∧ exec (.writeControl 1 v) s = .next u)
        ∧ (v.toNat / 4096 % 4 = 0 → exec (.writeControl 1 v) s = .next s0))
      ∧ (∀ n, n < 48 → answers (.pldmSensorRead n) 0 [(BitVec.ofInt 8 (s.field n).temp).zeroExtend 32]
        ∧ answers (.pldmSensorRead (49 + n)) 0 [BitVec.ofNat 32 (min 1023 ((s.field n).ma / 1000).toNat)])
      ∧ answers (.pldmSensorRead 48) 0 [BitVec.ofNat 32 (s.kiln.pIn % 32768)]
      ∧ ∀ n, 97 ≤ n → answers (.pldmSensorRead n) 0x80 [])

/-- Version 1.2, the capabilities, the algorithms and the slots that hold a chain (R415, R418). Slot 1 waits for the
election, a signature needs the device's identity, a slot without a chain is an invalid request; else the certificate, the
challenge's and the measurements' signatures are what the slot's key gives, a free function (log 8). Indexes of an image wait
for the election (R416, R418). -/
def Obligations.SaggerAnswers : Prop :=
  ∀ (s : State) (tr : Transport), s.sgrServes tr = true →
    let tells := fun (c : Instr) (r : SpdmResp) => exec c s = .next (s.modSgr fun g => { g with resp := r })
    let slots := fun (slot : Nat) (signs : Bool) (c : Instr) (r : SpdmResp) =>
      (slot = 1 → s.mgmt.elected = false → tells c .errorNotReady)
      ∧ (¬ (slot = 1 ∧ s.mgmt.elected = false) → signs = true → s.sgr.idOk = false → tells c .errorUnspecified)
      ∧ (¬ (slot = 1 ∧ s.mgmt.elected = false) → (signs = true → s.sgr.idOk = true) →
          ((1 < slot ∨ slot = 1 ∧ s.sgr.aliasOk = false) → tells c .errorInvalid)
          ∧ ((slot = 0 ∨ slot = 1 ∧ s.sgr.aliasOk = true) → tells c r))
    tells (.getVersion tr) (.version 0x12) ∧ tells (.getCapabilities tr) (.capabilities 14 4)
    ∧ tells (.negotiateAlgorithms tr) .algorithms
    ∧ (s.sgr.aliasOk = true → tells (.getDigests tr) (.digests [0, 1]))
    ∧ (s.sgr.aliasOk = false → tells (.getDigests tr) (.digests [0]))
    ∧ (∀ slot off len, slots slot false (.getCertificate tr slot off len) (.certificate slot (Config.certificate slot off len)))
    ∧ (∀ slot nonce, slots slot true (.challenge tr slot nonce)
        (.challengeAuth slot (Config.signature slot [s.sgr.secverDev, 0x83, nonce])))
    ∧ (∀ idx sign, (2 ≤ idx ∧ idx ≤ 6 ∨ 17 ≤ idx ∧ idx ≤ 25) → s.mgmt.elected = false →
        tells (.getMeasurements tr idx sign) .errorNotReady)
    ∧ tells (.getMeasurements tr 0 none) (.measurements [(0, s.measures.length)] none)
    ∧ tells (.getMeasurements tr 255 none) (.measurements s.measures none)
    ∧ tells (.getMeasurements tr 1 none) (.measurements ((1, Config.romDigest) ::
        (s.sgr.meas.filter fun e => e.1 = 1)) none)

/-- KEY_EXCHANGE opens one of at most four sessions, FINISH completes it, HEARTBEAT and KEY_UPDATE keep it, END_SESSION or
180 s without a heartbeat end it with every stream keyed in it; a request for a session that is not there is invalid
(R417).
Inside a session of the port, KEY_PROG puts a key into a set that is not in use, K_SET_GO switches one direction and
sub-stream to a set that has its key, and the stream is secure once all six run on one set; K_SET_STOP, and an IDE error,
erase the stream (R419). -/
def Obligations.SessionsAndKeys : Prop :=
  (
    ∀ (s : State) (tr : Transport), s.sgrServes tr = true →
      let g := s.sgr
      let tells := fun (c : Instr) (h : Sagger) => exec c s = .next { s with sgr := h }
      (∀ slot req, (slot = 0 ∨ slot = 1 ∧ s.mgmt.elected = true ∧ g.aliasOk = true) → g.idOk = true →
        (4 ≤ g.sessions.length → tells (.keyExchange tr slot req) { g with resp := .errorSessionLimit })
        ∧ (g.sessions.length < 4 → tells (.keyExchange tr slot req)
            { g with nextSid := g.nextSid + 1
                     sessions := tPut g.sessions g.nextSid { tr := tr, open_ := false, beatAt := s.time }
                     resp := .keyExchangeRsp g.nextSid (Config.signature slot [g.secverDev, 0xE4, req, g.nextSid]) }))
      ∧ (∀ sid (x : Session), tGet? g.sessions sid = some x →
        let ended := fun (u : State) => tGet? u.sgr.sessions sid = none ∧ (∀ e ∈ u.sgr.streams, e.2.session ≠ some sid)
          ∧ (∀ q, q ≠ sid → tGet? u.sgr.sessions q = tGet? g.sessions q)
          ∧ ∀ e ∈ g.streams, e.2.session ≠ some sid → e ∈ u.sgr.streams
        (x.tr = tr → x.open_ = false → tells (.finish tr sid)
          { g with sessions := tPut g.sessions sid { x with open_ := true, beatAt := s.time }, resp := .finishRsp sid })
        ∧ (x.tr = tr → x.open_ = true → tells (.heartbeat tr sid)
            { g with sessions := tPut g.sessions sid { x with beatAt := s.time }, resp := .heartbeatAck sid }
          ∧ tells (.keyUpdate tr sid)
            { g with sessions := tPut g.sessions sid { x with keys := x.keys + 1 }, resp := .keyUpdateAck sid }
          ∧ ∃ u, exec (.endSession tr sid) s = .next u ∧ u.sgr.resp = .endSessionAck sid ∧ ended u)
        ∧ (x.beatAt + Config.sec 180 ≤ s.time → ∃ u, exec (.sessionTimeout sid) s = .next u ∧ ended u))
      ∧ (∀ sid, tGet? g.sessions sid = none → tells (.finish tr sid) { g with resp := .errorInvalid }
        ∧ tells (.heartbeat tr sid) { g with resp := .errorInvalid } ∧ tells (.keyUpdate tr sid) { g with resp := .errorInvalid }
        ∧ tells (.endSession tr sid) { g with resp := .errorInvalid }))
  ∧ (
    ∀ (s : State) (h j sid : Nat) (k : KeySlot), h < 4 → j < 4 →
      let n := 4 * h + j
      let x := tGet {} s.sgr.streams n
      let tells := fun (c : Instr) (un : Bool) (g : Option IdeStream → Prop) => ∃ u, exec c s = .next u ∧ u.sgr.resp = .ideAck un
        ∧ g (tGet? u.sgr.streams n) ∧ u.sgr.sessions = s.sgr.sessions ∧ ∀ m, m ≠ n → tGet? u.sgr.streams m = tGet? s.sgr.streams m
      let exists_ := k.set < 2 ∧ k.sub < 3
      (s.sgrServes (.port h) = true → (∃ y, tGet? s.sgr.sessions sid = some y ∧ y.tr = .port h ∧ y.open_ = true) →
        (∀ key, exists_ → (∀ q ∈ x.going, q.set ≠ k.set) → tells (.keyProg h j sid k key) false fun y => ∃ z, y = some z
            ∧ z.session = some sid ∧ z.keys = x.keys.filter (fun e => e.1 ≠ k) ++ [(k, key)] ∧ z.going = x.going
            ∧ z.secure = x.secure)
        ∧ (∀ key, (¬ exists_ ∨ ∃ q ∈ x.going, q.set = k.set) →
            tells (.keyProg h j sid k key) true fun y => y = tGet? s.sgr.streams n)
        ∧ (exists_ → (∃ e ∈ x.keys, e.1 = k) → tells (.kSetGo h j sid k) false fun y => ∃ z, y = some z ∧ k ∈ z.going
            ∧ (∀ q ∈ z.going, q.rx = k.rx → q.sub = k.sub → q = k)
            ∧ (∀ q ∈ x.going, ¬ (q.rx = k.rx ∧ q.sub = k.sub) → q ∈ z.going) ∧ z.keys = x.keys
            ∧ ((∀ rx sub, sub < 3 → (⟨k.set, rx, sub⟩ : KeySlot) ∈ z.going) → z.secure = some k.set)
            ∧ ((∃ rx sub, sub < 3 ∧ (⟨k.set, rx, sub⟩ : KeySlot) ∉ z.going) → z.secure = x.secure))
        ∧ ((¬ exists_ ∨ ∀ e ∈ x.keys, e.1 ≠ k) → tells (.kSetGo h j sid k) true fun y => y = tGet? s.sgr.streams n)
        ∧ (exists_ → tells (.kSetStop h j sid k) false fun y => y = none))
      ∧ ∃ u, exec (.ideError h j) s = .next u ∧ tGet? u.sgr.streams n = none
        ∧ ∀ m, m ≠ n → tGet? u.sgr.streams m = tGet? s.sgr.streams m)

/-- A snapshot that falls due waits for every training span, or, with one still under way, is not taken (R396, R405). A
span's capture keeps the bytes of its tiles, in their order; the last one writes the shard, if it fits its slot; a GET that
fails or a window's port that has gone down abandons the snapshot (R396, R397, R405). The commit record follows, or nothing
(R398); INTERVAL_S / 4 after the due time a snapshot that still waits is abandoned (R405). -/
def Obligations.SnapshotsTaken : Prop :=
  ∀ (s : State),
    let c := s.ckpt
    let m := s.image
    let wins := parWins m
    let steady := s.winsUp wins = true ∧ s.winDowns wins = c.downs
    let dropped := fun (u : State) => u.ckpt.n = 0 ∧ u.ckpt.waiting = [] ∧ u.ckpt.capturing = [] ∧ u.ckpt.written = false
      ∧ u.ckpt.last = c.last
    let n := s.clk.master / 1000000000 / parInterval m
    ((sect m 7).isSome = true → s.inService = true → s.mgmt.ksReset = none → c.lastDue < n → ∃ u, exec .snapshotDue s = .next u
      ∧ u.ckpt.lastDue = n
      ∧ (c.n = 0 → u.ckpt.n = n ∧ u.ckpt.waiting = (parSpans m).map (·.1) ∧ u.ckpt.capturing = [] ∧ u.ckpt.data = []
          ∧ u.ckpt.late = c.late)
      ∧ (c.n ≠ 0 → u.ckpt.n = c.n ∧ u.ckpt.waiting = c.waiting ∧ u.ckpt.late = min 255 (c.late + 1)))
    ∧ (∀ k lo hi, k < 4096 → (s.span k).op.any (·.capture) = true → c.capturing.contains k = true → s.mgmt.ksReset = none →
      (parSpans m).find? (·.1 = k) = some (k, lo, hi) → c.n ≠ 0 → s.mgmt.st ≠ .glost →
      let ts := s.spanTiles k
      let lost := ∃ t ∈ ts, (s.tile t).pad.bad lo (hi + 1 - lo) = true ∨ (s.tile t).pad.anyOff lo (hi + 1 - lo) = true
      let bs := (ts.map fun t => (s.tile t).pad.bytes lo (hi + 1 - lo)).flatten
      (lost ∨ ¬ steady → ∃ u, exec (.captureComplete k) s = .next u ∧ dropped u)
      ∧ (¬ lost → steady → ∃ v : State, tGet? v.ckpt.data k = some bs ∧ v.ckpt.capturing = c.capturing.filter (· ≠ k)
          ∧ v.ckpt.n = c.n ∧ v.ckpt.waiting = c.waiting
          ∧ (c.waiting ≠ [] ∨ v.ckpt.capturing ≠ [] → exec (.captureComplete k) s = .next v)
          ∧ (c.waiting = [] → v.ckpt.capturing = [] → exec (.captureComplete k) s = .next v.writeShard
              ∧ (shardFits v.image (parWins v.image) v.shard.length = true → v.writeShard.ckpt.written = true)
              ∧ (shardFits v.image (parWins v.image) v.shard.length = false → v.writeShard.ckpt.n = 0))))
    ∧ (c.n ≠ 0 → c.written = true → s.mgmt.st ≠ .glost →
      (¬ steady → ∃ u, exec .shardCommit s = .next u ∧ dropped u)
      ∧ (steady → ∀ w, tGet? s.windows (wins.getD 0 0) = some w → ∃ u r, exec .shardCommit s = .next u ∧ u.ckpt.n = 0
          ∧ u.ckpt.last = c.n ∧ u.ckpt.written = false
          ∧ (u.port w.port).out = (s.port w.port).out ++ [.write (w.base + c.n % 2 * parSlot m) r w.noSnoop]
          ∧ r.length = 64 ∧ leNat (r.take 4) = commitMagic ∧ leNat ((r.drop 4).take 4) = c.n % 2 ^ 32
          ∧ leNat ((r.drop 16).take 8) = s.shard.length % 2 ^ 64))
    ∧ (c.n ≠ 0 → c.waiting ≠ [] → lateTime m c.n ≤ s.clk.master → s.mgmt.st ≠ .glost → ∃ u,
      exec .snapshotDeadline s = .next u ∧ dropped u ∧ u.ckpt.late = min 255 (c.late + 1))

/-- A piece of a position that the group adds up is taken once: its bytes are XORed into its stripe (R399, R400), and a
complete stripe is written to the group's slot. An end gives its position's LEN; with every end the slot is committed, and a
rebuild is over, LAST taking its snapshot where a data shard was lost (R400, R403). INTERVAL_S / 4 after the due time a slot
that lacks an end is given up (R401). A refused group takes nothing (R402).
In service a group told to rebuild does so once: PARITY_REBUILD, and requests to the eight lowest positions that answer
HELLO; with fewer, or a refused group, it ends at once (R403). A member serves the shard of the slot asked for, multiplied by
the coefficient, or refuses; a refusal ends the rebuild (R403); a request waits for the member's own capture (R405). -/
def Obligations.ParityAndRebuild : Prop :=
  (
    ∀ (s : State) (g : Nat) (x : Sys2Proof.Machine.Group), s.ckpt.groups[g]? = some x →
      let now := fun (u : State) (y : Sys2Proof.Machine.Group) => u.ckpt.groups[g]? = some y
      (∀ p k s', p < 32 → s.takeReceived p k = some s' → k.op = .parity → k.ret = false → k.deng = s.mgmt.engId →
        x.hears k = true →
        (x.refused = true → k.sub = 0 → exec (.parityPiece p g k) s = .next s')
        ∧ (x.refused = true → k.sub = 1 → exec (.parityEnd p g k) s = .next s')
        ∧ (x.refused = false → k.sub = 0 → x.accepts k.rid = true → x.members[k.rid]? = some k.seng →
            x.pieces.contains (k.rid, k.run, k.gen) = false →
            let y := x.addPiece k.rid k
            ∃ u, exec (.parityPiece p g k) s = .next u
              ∧ (y.stripeDone k.run = false → now u y)
              ∧ (y.stripeDone k.run = true → x.wrote.contains k.run = false → s.slotUp x = true →
                  ∃ z, now u z ∧ z.wrote = x.wrote ++ [k.run] ∧ z.pieces = y.pieces ∧ tGet? z.stripes k.run = none))
        ∧ (x.refused = false → k.sub = 1 → x.pieces = [] →
            let i := x.members.idxOf k.seng
            let y : Sys2Proof.Machine.Group := { x with ends := tPut x.ends i k.old.toNat }
            x.accepts i = true → ∃ u, exec (.parityEnd p g k) s = .next u
              ∧ ((∃ q ∈ x.sources, tGet? y.ends q = none) → now u y)
              ∧ ((∀ q ∈ x.sources, tGet? y.ends q ≠ none) → s.slotUp x = true →
                  (x.rebuilding = false → now u x.cleared)
                  ∧ (x.rebuilding = true → (∃ z, now u z ∧ z.rebuilding = false ∧ z.pn = 0 ∧ z.ends = [])
                      ∧ (x.index ≤ 7 → u.ckpt.last = x.rsnap)))))
      ∧ (∀ i (k : Packet), let y := x.addPiece i k
          y.pieces = x.pieces ++ [(i, k.run, k.gen)]
          ∧ (∀ r, r ≠ k.run → tGet? y.stripes r = tGet? x.stripes r)
          ∧ ∀ a, mRead 0 (tGet [] y.stripes k.run) a = if k.gen * 256 ≤ a ∧ a < k.gen * 256 + k.data.length
              then mRead 0 (tGet [] x.stripes k.run) a ^^^ k.data.getD (a - k.gen * 256) 0
              else mRead 0 (tGet [] x.stripes k.run) a)
      ∧ (x.pn ≠ 0 → lateTime s.image x.pn ≤ s.clk.master → ∃ u, exec (.parityDeadline g) s = .next u ∧ now u x.cleared
          ∧ u.ckpt.late = min 255 (s.ckpt.late + 1)))
  ∧ (
    ∀ (s : State) (g : Nat) (x : Sys2Proof.Machine.Group), s.ckpt.groups[g]? = some x →
      (s.inService = true → x.rebuild = true → x.started = false → s.mgmt.ksReset = none →
        let ps := ((List.range 10).filter fun j => j ≠ x.index && s.answersHello (x.members.getD j 0)).take 8
        ∃ u y, exec (.rebuildStart g) s = .next u ∧ u.ckpt.groups[g]? = some y ∧ y.started = true ∧ y.pn = 0
          ∧ (∃ e ∈ u.status.reports, e.code = 0x0903 ∧ e.arg = x.rsnap)
          ∧ (ps.length < 8 ∨ x.refused = true → y.rebuilding = false)
          ∧ (y.rebuilding = true → y.asked = ps))
      ∧ (∀ p k s', p < 32 → s.takeReceived p k = some s' → k.op = .parity → k.ret = false → k.deng = s.mgmt.engId →
        x.hears k = true → x.refused = false →
        (k.sub = 2 → ∀ img,
          (s.ckpt.capturing ≠ [] → exec (.rebuildRequest p g k img) s = .next s)
          ∧ (s.ckpt.capturing = [] → (∀ bs, s.served x k img = some bs → ∃ u st, exec (.rebuildRequest p g k img) s = .next u
              ∧ st ∈ u.ckpt.streams ∧ st.dest = k.seng ∧ st.serve = some (k.run % 2) ∧ st.len = bs.length
              ∧ st.data = (padStripes bs).map (gfMul (BitVec.ofNat 8 k.gen)))
            ∧ (s.served x k img = none → ∃ (w : State) (r : Packet), exec (.rebuildRequest p g k img) s = .next (w.vdtSend p r)
              ∧ r.op = .parity ∧ r.sub = 3 ∧ r.deng = k.seng ∧ r.queue = x.id)))
        ∧ (k.sub = 3 → x.rebuilding = true → x.accepts (x.members.idxOf k.seng) = true → ∃ u y,
            exec (.rebuildRefusal p g k) s = .next u ∧ u.ckpt.groups[g]? = some y ∧ y.rebuilding = false ∧ y.pn = 0)))

/-- A command acts on everything but the queue of commands that wait. It is refused only where it is a sequencer instruction
whose operands its encoding cannot hold (R40 to R45), and a well-formed sequencer instruction answers a next state in every
state: its own effect, a trap, or a wait. A unit that no engine has is a fault, whatever the state of a tile's sequencer. -/
def Obligations.CommandsAnswer : Prop :=
  ∀ (c : Instr) (s : State),
    (∀ u, exec c s = .next u → u.pending = s.pending)
    ∧ (∀ r, exec c s = .refused r → r = .illFormed ∧ c.seqTile.isSome = true ∧ c.formOk = false)
    ∧ (c.seqWf = true → ∃ u, exec c s = .next u)
    ∧ (∀ t, c.seqTile = some t → Config.nTiles ≤ t → exec c s = .fault .noSuchTile)

/-- The word 0xFFFD9187 of R41's example is ADDI s3, s2, −5; and words written out from Tables 02.2, 02.3, 02.6 and 02.7: a
jump, a branch, a load, a special-register read, a remote GET, and the halfwords of C.ADDI, C.DONE and an undefined one. -/
def Obligations.SequencerWords : Prop :=
  ∀ (t : Nat) (hi : BitVec 16),
    decodeSeq t 0x9187 0xFFFD = .addi t (.w ⟨3, 2, -5⟩)
    ∧ decodeSeq t 0b00001_0001_01100_11 0b0000000000000000 = .jal t (.w ⟨1, 1⟩)
    ∧ decodeSeq t 0b11111_0101_01011_11 0b1111111111111111 = .bcc t (.w ⟨5, -1⟩)
    ∧ decodeSeq t 0b0_0010_0011_01001_11 0b0000000000100_10_0 = .ld t (.w ⟨3, 2, 0, 2, 4⟩)
    ∧ decodeSeq t 0b0_0000_0100_01110_11 0b0000000000101_000 = .mfs t (.w ⟨4, 0, 0, 5⟩)
    ∧ decodeSeq t 0b1_0010_0011_10001_11 0b00000_0000_0001_010 = .rmoGet t ⟨3, 2, 5, 0, 0⟩
    ∧ decodeSeq t 0b1000_0011_1111_11_00 hi = .addi t (.addi ⟨3, 15, 3⟩)
    ∧ decodeSeq t 0b0010_0000_0000_00_01 hi = .doneHandler t (.c ⟨0, 0, 0⟩)
    ∧ decodeSeq t 0b1111_0000_0000_00_10 hi = .alu t (.undef16 0b1111000000000010)

/-- For every well-formed sequencer instruction the decoder reads the instruction back from the halfwords of its encoding,
with every operand (R40 to R45, R47); and every pair of halfwords, on every tile, decodes to a well-formed instruction whose
encoding is those bits: a 16-bit one is the first halfword alone. -/
def Obligations.SequencerCodeAgrees : Prop :=
  (∀ (i : Instr) (t len : Nat) (w : Word), i.seqTile = some t → i.seqWf = true → i.word = some (len, w) →
    (len = 4 → decodeSeq t (w.extractLsb' 0 16) (w.extractLsb' 16 16) = i)
    ∧ (len = 2 → ∀ hi, decodeSeq t (w.extractLsb' 0 16) hi = i)
    ∧ (len = 2 ∨ len = 4) ∧ (len = 4 ↔ w.extractLsb' 0 2 = 3))
  ∧ (∀ (t : Nat) (lo hi : BitVec 16), t < Config.nTiles →
    (decodeSeq t lo hi).seqTile = some t ∧ (decodeSeq t lo hi).seqWf = true
      ∧ (lo.extractLsb' 0 2 = 3 → (decodeSeq t lo hi).word = some (4, hi ++ lo))
      ∧ (lo.extractLsb' 0 2 ≠ 3 → (decodeSeq t lo hi).word = some (2, lo.zeroExtend 32)))

/-- In every state whose memories are canonical, with addresses strictly rising and no byte listed that an unlisted address
reads as, a step, be it a command or the passage of time, leaves them so: every tile's scratchpad and instruction store, and
each Keystone's flash device, image and SRAM. Equal memories are then equal data. -/
def Obligations.StepKeepsForm : Prop :=
  ∀ (s u : State),
    ((∀ t, (s.tile t).memWf = true)
      ∧ ∀ k, Mem.wf erased (s.ks k).flash = true ∧ Mem.wf erased (s.ks k).img = true ∧ Mem.wf 0 (s.ks k).sram = true) →
    step s = .next u →
    (∀ t, (u.tile t).memWf = true)
      ∧ ∀ k, Mem.wf erased (u.ks k).flash = true ∧ Mem.wf erased (u.ks k).img = true ∧ Mem.wf 0 (u.ks k).sram = true

/-- After reset the engine is in state OFF with no command waiting (R255); every tile's sequencer is STOPPED with its
registers and PC at 0, its queues closed, its scratchpad and store canonical; every port of both kinds is without a link;
and the Keystones' memories are canonical. The zeros of scratchpad, store and registers are the model's choice (logs 4
and 5). -/
def Obligations.ResetState : Prop :=
  State.reset.mgmt.st = .off ∧ State.reset.pending = []
    ∧ (∀ t, (State.reset.tile t).memWf = true ∧ (State.reset.seq t).state = .stopped ∧ (State.reset.seq t).pc = 0
      ∧ (∀ r, (State.reset.seq t).reg r = 0) ∧ ∀ i, ((State.reset.tile t).queue i).isOpen = false)
    ∧ (∀ h, (State.reset.port h).linkUp = false ∧ (State.reset.port h).state = .down)
    ∧ (∀ p, (State.reset.vport p).state = .unused)
    ∧ ∀ k, Mem.wf erased (State.reset.ks k).flash = true ∧ Mem.wf erased (State.reset.ks k).img = true
      ∧ Mem.wf 0 (State.reset.ks k).sram = true
end

