-- ==== Sys2Proof/Laws/State.lean ====
section
/-! SUPPORT. What each update of one part of the state leaves of every part: one lemma for each update and field. -/

namespace Sys2Proof.Machine

variable (s : State)

@[simp] theorem State.setTile_pending (t : Nat) (x : Tile) : (s.setTile t x).pending = s.pending := rfl
@[simp] theorem State.setTile_now (t : Nat) (x : Tile) : (s.setTile t x).now = s.now := rfl
@[simp] theorem State.setTile_time (t : Nat) (x : Tile) : (s.setTile t x).time = s.time := rfl
@[simp] theorem State.setTile_freeCtr (t : Nat) (x : Tile) : (s.setTile t x).freeCtr = s.freeCtr := rfl
@[simp] theorem State.setTile_fields (t : Nat) (x : Tile) : (s.setTile t x).fields = s.fields := rfl
@[simp] theorem State.setTile_blades (t : Nat) (x : Tile) : (s.setTile t x).blades = s.blades := rfl
@[simp] theorem State.setTile_mgmt (t : Nat) (x : Tile) : (s.setTile t x).mgmt = s.mgmt := rfl
@[simp] theorem State.setTile_south (t : Nat) (x : Tile) : (s.setTile t x).south = s.south := rfl
@[simp] theorem State.setTile_north (t : Nat) (x : Tile) : (s.setTile t x).north = s.north := rfl
@[simp] theorem State.setTile_map (t : Nat) (x : Tile) : (s.setTile t x).map = s.map := rfl
@[simp] theorem State.setTile_routes (t : Nat) (x : Tile) : (s.setTile t x).routes = s.routes := rfl
@[simp] theorem State.setTile_spans (t : Nat) (x : Tile) : (s.setTile t x).spans = s.spans := rfl
@[simp] theorem State.setTile_kiln (t : Nat) (x : Tile) : (s.setTile t x).kiln = s.kiln := rfl
@[simp] theorem State.setTile_clk (t : Nat) (x : Tile) : (s.setTile t x).clk = s.clk := rfl
@[simp] theorem State.setTile_windows (t : Nat) (x : Tile) : (s.setTile t x).windows = s.windows := rfl
@[simp] theorem State.setTile_rings (t : Nat) (x : Tile) : (s.setTile t x).rings = s.rings := rfl
@[simp] theorem State.setTile_ports (t : Nat) (x : Tile) : (s.setTile t x).ports = s.ports := rfl
@[simp] theorem State.setTile_vdt (t : Nat) (x : Tile) : (s.setTile t x).vdt = s.vdt := rfl
@[simp] theorem State.setTile_ckpt (t : Nat) (x : Tile) : (s.setTile t x).ckpt = s.ckpt := rfl
@[simp] theorem State.setTile_sgr (t : Nat) (x : Tile) : (s.setTile t x).sgr = s.sgr := rfl
@[simp] theorem State.setTile_status (t : Nat) (x : Tile) : (s.setTile t x).status = s.status := rfl

@[simp] theorem State.modTile_pending (t : Nat) (f : Tile → Tile) : (s.modTile t f).pending = s.pending := rfl
@[simp] theorem State.modTile_now (t : Nat) (f : Tile → Tile) : (s.modTile t f).now = s.now := rfl
@[simp] theorem State.modTile_time (t : Nat) (f : Tile → Tile) : (s.modTile t f).time = s.time := rfl
@[simp] theorem State.modTile_freeCtr (t : Nat) (f : Tile → Tile) : (s.modTile t f).freeCtr = s.freeCtr := rfl
@[simp] theorem State.modTile_fields (t : Nat) (f : Tile → Tile) : (s.modTile t f).fields = s.fields := rfl
@[simp] theorem State.modTile_blades (t : Nat) (f : Tile → Tile) : (s.modTile t f).blades = s.blades := rfl
@[simp] theorem State.modTile_mgmt (t : Nat) (f : Tile → Tile) : (s.modTile t f).mgmt = s.mgmt := rfl
@[simp] theorem State.modTile_south (t : Nat) (f : Tile → Tile) : (s.modTile t f).south = s.south := rfl
@[simp] theorem State.modTile_north (t : Nat) (f : Tile → Tile) : (s.modTile t f).north = s.north := rfl
@[simp] theorem State.modTile_map (t : Nat) (f : Tile → Tile) : (s.modTile t f).map = s.map := rfl
@[simp] theorem State.modTile_routes (t : Nat) (f : Tile → Tile) : (s.modTile t f).routes = s.routes := rfl
@[simp] theorem State.modTile_spans (t : Nat) (f : Tile → Tile) : (s.modTile t f).spans = s.spans := rfl
@[simp] theorem State.modTile_kiln (t : Nat) (f : Tile → Tile) : (s.modTile t f).kiln = s.kiln := rfl
@[simp] theorem State.modTile_clk (t : Nat) (f : Tile → Tile) : (s.modTile t f).clk = s.clk := rfl
@[simp] theorem State.modTile_windows (t : Nat) (f : Tile → Tile) : (s.modTile t f).windows = s.windows := rfl
@[simp] theorem State.modTile_rings (t : Nat) (f : Tile → Tile) : (s.modTile t f).rings = s.rings := rfl
@[simp] theorem State.modTile_ports (t : Nat) (f : Tile → Tile) : (s.modTile t f).ports = s.ports := rfl
@[simp] theorem State.modTile_vdt (t : Nat) (f : Tile → Tile) : (s.modTile t f).vdt = s.vdt := rfl
@[simp] theorem State.modTile_ckpt (t : Nat) (f : Tile → Tile) : (s.modTile t f).ckpt = s.ckpt := rfl
@[simp] theorem State.modTile_sgr (t : Nat) (f : Tile → Tile) : (s.modTile t f).sgr = s.sgr := rfl
@[simp] theorem State.modTile_status (t : Nat) (f : Tile → Tile) : (s.modTile t f).status = s.status := rfl

@[simp] theorem State.modSpan_pending (n : Nat) (f : Span → Span) : (s.modSpan n f).pending = s.pending := rfl
@[simp] theorem State.modSpan_now (n : Nat) (f : Span → Span) : (s.modSpan n f).now = s.now := rfl
@[simp] theorem State.modSpan_time (n : Nat) (f : Span → Span) : (s.modSpan n f).time = s.time := rfl
@[simp] theorem State.modSpan_freeCtr (n : Nat) (f : Span → Span) : (s.modSpan n f).freeCtr = s.freeCtr := rfl
@[simp] theorem State.modSpan_tiles (n : Nat) (f : Span → Span) : (s.modSpan n f).tiles = s.tiles := rfl
@[simp] theorem State.modSpan_fields (n : Nat) (f : Span → Span) : (s.modSpan n f).fields = s.fields := rfl
@[simp] theorem State.modSpan_blades (n : Nat) (f : Span → Span) : (s.modSpan n f).blades = s.blades := rfl
@[simp] theorem State.modSpan_mgmt (n : Nat) (f : Span → Span) : (s.modSpan n f).mgmt = s.mgmt := rfl
@[simp] theorem State.modSpan_south (n : Nat) (f : Span → Span) : (s.modSpan n f).south = s.south := rfl
@[simp] theorem State.modSpan_north (n : Nat) (f : Span → Span) : (s.modSpan n f).north = s.north := rfl
@[simp] theorem State.modSpan_map (n : Nat) (f : Span → Span) : (s.modSpan n f).map = s.map := rfl
@[simp] theorem State.modSpan_routes (n : Nat) (f : Span → Span) : (s.modSpan n f).routes = s.routes := rfl
@[simp] theorem State.modSpan_kiln (n : Nat) (f : Span → Span) : (s.modSpan n f).kiln = s.kiln := rfl
@[simp] theorem State.modSpan_clk (n : Nat) (f : Span → Span) : (s.modSpan n f).clk = s.clk := rfl
@[simp] theorem State.modSpan_windows (n : Nat) (f : Span → Span) : (s.modSpan n f).windows = s.windows := rfl
@[simp] theorem State.modSpan_rings (n : Nat) (f : Span → Span) : (s.modSpan n f).rings = s.rings := rfl
@[simp] theorem State.modSpan_ports (n : Nat) (f : Span → Span) : (s.modSpan n f).ports = s.ports := rfl
@[simp] theorem State.modSpan_vdt (n : Nat) (f : Span → Span) : (s.modSpan n f).vdt = s.vdt := rfl
@[simp] theorem State.modSpan_ckpt (n : Nat) (f : Span → Span) : (s.modSpan n f).ckpt = s.ckpt := rfl
@[simp] theorem State.modSpan_sgr (n : Nat) (f : Span → Span) : (s.modSpan n f).sgr = s.sgr := rfl
@[simp] theorem State.modSpan_status (n : Nat) (f : Span → Span) : (s.modSpan n f).status = s.status := rfl

@[simp] theorem State.modField_pending (k : Nat) (f : Field → Field) : (s.modField k f).pending = s.pending := rfl
@[simp] theorem State.modField_now (k : Nat) (f : Field → Field) : (s.modField k f).now = s.now := rfl
@[simp] theorem State.modField_time (k : Nat) (f : Field → Field) : (s.modField k f).time = s.time := rfl
@[simp] theorem State.modField_freeCtr (k : Nat) (f : Field → Field) : (s.modField k f).freeCtr = s.freeCtr := rfl
@[simp] theorem State.modField_tiles (k : Nat) (f : Field → Field) : (s.modField k f).tiles = s.tiles := rfl
@[simp] theorem State.modField_blades (k : Nat) (f : Field → Field) : (s.modField k f).blades = s.blades := rfl
@[simp] theorem State.modField_mgmt (k : Nat) (f : Field → Field) : (s.modField k f).mgmt = s.mgmt := rfl
@[simp] theorem State.modField_south (k : Nat) (f : Field → Field) : (s.modField k f).south = s.south := rfl
@[simp] theorem State.modField_north (k : Nat) (f : Field → Field) : (s.modField k f).north = s.north := rfl
@[simp] theorem State.modField_map (k : Nat) (f : Field → Field) : (s.modField k f).map = s.map := rfl
@[simp] theorem State.modField_routes (k : Nat) (f : Field → Field) : (s.modField k f).routes = s.routes := rfl
@[simp] theorem State.modField_spans (k : Nat) (f : Field → Field) : (s.modField k f).spans = s.spans := rfl
@[simp] theorem State.modField_kiln (k : Nat) (f : Field → Field) : (s.modField k f).kiln = s.kiln := rfl
@[simp] theorem State.modField_clk (k : Nat) (f : Field → Field) : (s.modField k f).clk = s.clk := rfl
@[simp] theorem State.modField_windows (k : Nat) (f : Field → Field) : (s.modField k f).windows = s.windows := rfl
@[simp] theorem State.modField_rings (k : Nat) (f : Field → Field) : (s.modField k f).rings = s.rings := rfl
@[simp] theorem State.modField_ports (k : Nat) (f : Field → Field) : (s.modField k f).ports = s.ports := rfl
@[simp] theorem State.modField_vdt (k : Nat) (f : Field → Field) : (s.modField k f).vdt = s.vdt := rfl
@[simp] theorem State.modField_ckpt (k : Nat) (f : Field → Field) : (s.modField k f).ckpt = s.ckpt := rfl
@[simp] theorem State.modField_sgr (k : Nat) (f : Field → Field) : (s.modField k f).sgr = s.sgr := rfl
@[simp] theorem State.modField_status (k : Nat) (f : Field → Field) : (s.modField k f).status = s.status := rfl

@[simp] theorem State.modPort_pending (h : Nat) (f : PciePort → PciePort) : (s.modPort h f).pending = s.pending := rfl
@[simp] theorem State.modPort_now (h : Nat) (f : PciePort → PciePort) : (s.modPort h f).now = s.now := rfl
@[simp] theorem State.modPort_time (h : Nat) (f : PciePort → PciePort) : (s.modPort h f).time = s.time := rfl
@[simp] theorem State.modPort_freeCtr (h : Nat) (f : PciePort → PciePort) : (s.modPort h f).freeCtr = s.freeCtr := rfl
@[simp] theorem State.modPort_tiles (h : Nat) (f : PciePort → PciePort) : (s.modPort h f).tiles = s.tiles := rfl
@[simp] theorem State.modPort_fields (h : Nat) (f : PciePort → PciePort) : (s.modPort h f).fields = s.fields := rfl
@[simp] theorem State.modPort_blades (h : Nat) (f : PciePort → PciePort) : (s.modPort h f).blades = s.blades := rfl
@[simp] theorem State.modPort_mgmt (h : Nat) (f : PciePort → PciePort) : (s.modPort h f).mgmt = s.mgmt := rfl
@[simp] theorem State.modPort_south (h : Nat) (f : PciePort → PciePort) : (s.modPort h f).south = s.south := rfl
@[simp] theorem State.modPort_north (h : Nat) (f : PciePort → PciePort) : (s.modPort h f).north = s.north := rfl
@[simp] theorem State.modPort_map (h : Nat) (f : PciePort → PciePort) : (s.modPort h f).map = s.map := rfl
@[simp] theorem State.modPort_routes (h : Nat) (f : PciePort → PciePort) : (s.modPort h f).routes = s.routes := rfl
@[simp] theorem State.modPort_spans (h : Nat) (f : PciePort → PciePort) : (s.modPort h f).spans = s.spans := rfl
@[simp] theorem State.modPort_kiln (h : Nat) (f : PciePort → PciePort) : (s.modPort h f).kiln = s.kiln := rfl
@[simp] theorem State.modPort_clk (h : Nat) (f : PciePort → PciePort) : (s.modPort h f).clk = s.clk := rfl
@[simp] theorem State.modPort_windows (h : Nat) (f : PciePort → PciePort) : (s.modPort h f).windows = s.windows := rfl
@[simp] theorem State.modPort_rings (h : Nat) (f : PciePort → PciePort) : (s.modPort h f).rings = s.rings := rfl
@[simp] theorem State.modPort_vdt (h : Nat) (f : PciePort → PciePort) : (s.modPort h f).vdt = s.vdt := rfl
@[simp] theorem State.modPort_ckpt (h : Nat) (f : PciePort → PciePort) : (s.modPort h f).ckpt = s.ckpt := rfl
@[simp] theorem State.modPort_sgr (h : Nat) (f : PciePort → PciePort) : (s.modPort h f).sgr = s.sgr := rfl
@[simp] theorem State.modPort_status (h : Nat) (f : PciePort → PciePort) : (s.modPort h f).status = s.status := rfl

@[simp] theorem State.modVport_pending (p : Nat) (f : VdtPort → VdtPort) : (s.modVport p f).pending = s.pending := rfl
@[simp] theorem State.modVport_now (p : Nat) (f : VdtPort → VdtPort) : (s.modVport p f).now = s.now := rfl
@[simp] theorem State.modVport_time (p : Nat) (f : VdtPort → VdtPort) : (s.modVport p f).time = s.time := rfl
@[simp] theorem State.modVport_freeCtr (p : Nat) (f : VdtPort → VdtPort) : (s.modVport p f).freeCtr = s.freeCtr := rfl
@[simp] theorem State.modVport_tiles (p : Nat) (f : VdtPort → VdtPort) : (s.modVport p f).tiles = s.tiles := rfl
@[simp] theorem State.modVport_fields (p : Nat) (f : VdtPort → VdtPort) : (s.modVport p f).fields = s.fields := rfl
@[simp] theorem State.modVport_blades (p : Nat) (f : VdtPort → VdtPort) : (s.modVport p f).blades = s.blades := rfl
@[simp] theorem State.modVport_mgmt (p : Nat) (f : VdtPort → VdtPort) : (s.modVport p f).mgmt = s.mgmt := rfl
@[simp] theorem State.modVport_south (p : Nat) (f : VdtPort → VdtPort) : (s.modVport p f).south = s.south := rfl
@[simp] theorem State.modVport_north (p : Nat) (f : VdtPort → VdtPort) : (s.modVport p f).north = s.north := rfl
@[simp] theorem State.modVport_map (p : Nat) (f : VdtPort → VdtPort) : (s.modVport p f).map = s.map := rfl
@[simp] theorem State.modVport_routes (p : Nat) (f : VdtPort → VdtPort) : (s.modVport p f).routes = s.routes := rfl
@[simp] theorem State.modVport_spans (p : Nat) (f : VdtPort → VdtPort) : (s.modVport p f).spans = s.spans := rfl
@[simp] theorem State.modVport_kiln (p : Nat) (f : VdtPort → VdtPort) : (s.modVport p f).kiln = s.kiln := rfl
@[simp] theorem State.modVport_clk (p : Nat) (f : VdtPort → VdtPort) : (s.modVport p f).clk = s.clk := rfl
@[simp] theorem State.modVport_windows (p : Nat) (f : VdtPort → VdtPort) : (s.modVport p f).windows = s.windows := rfl
@[simp] theorem State.modVport_rings (p : Nat) (f : VdtPort → VdtPort) : (s.modVport p f).rings = s.rings := rfl
@[simp] theorem State.modVport_ports (p : Nat) (f : VdtPort → VdtPort) : (s.modVport p f).ports = s.ports := rfl
@[simp] theorem State.modVport_ckpt (p : Nat) (f : VdtPort → VdtPort) : (s.modVport p f).ckpt = s.ckpt := rfl
@[simp] theorem State.modVport_sgr (p : Nat) (f : VdtPort → VdtPort) : (s.modVport p f).sgr = s.sgr := rfl
@[simp] theorem State.modVport_status (p : Nat) (f : VdtPort → VdtPort) : (s.modVport p f).status = s.status := rfl

@[simp] theorem State.modMgmt_pending (f : Mgmt → Mgmt) : (s.modMgmt f).pending = s.pending := rfl
@[simp] theorem State.modMgmt_now (f : Mgmt → Mgmt) : (s.modMgmt f).now = s.now := rfl
@[simp] theorem State.modMgmt_time (f : Mgmt → Mgmt) : (s.modMgmt f).time = s.time := rfl
@[simp] theorem State.modMgmt_freeCtr (f : Mgmt → Mgmt) : (s.modMgmt f).freeCtr = s.freeCtr := rfl
@[simp] theorem State.modMgmt_tiles (f : Mgmt → Mgmt) : (s.modMgmt f).tiles = s.tiles := rfl
@[simp] theorem State.modMgmt_fields (f : Mgmt → Mgmt) : (s.modMgmt f).fields = s.fields := rfl
@[simp] theorem State.modMgmt_blades (f : Mgmt → Mgmt) : (s.modMgmt f).blades = s.blades := rfl
@[simp] theorem State.modMgmt_mgmt (f : Mgmt → Mgmt) : (s.modMgmt f).mgmt = f s.mgmt := rfl
@[simp] theorem State.modMgmt_south (f : Mgmt → Mgmt) : (s.modMgmt f).south = s.south := rfl
@[simp] theorem State.modMgmt_north (f : Mgmt → Mgmt) : (s.modMgmt f).north = s.north := rfl
@[simp] theorem State.modMgmt_map (f : Mgmt → Mgmt) : (s.modMgmt f).map = s.map := rfl
@[simp] theorem State.modMgmt_routes (f : Mgmt → Mgmt) : (s.modMgmt f).routes = s.routes := rfl
@[simp] theorem State.modMgmt_spans (f : Mgmt → Mgmt) : (s.modMgmt f).spans = s.spans := rfl
@[simp] theorem State.modMgmt_kiln (f : Mgmt → Mgmt) : (s.modMgmt f).kiln = s.kiln := rfl
@[simp] theorem State.modMgmt_clk (f : Mgmt → Mgmt) : (s.modMgmt f).clk = s.clk := rfl
@[simp] theorem State.modMgmt_windows (f : Mgmt → Mgmt) : (s.modMgmt f).windows = s.windows := rfl
@[simp] theorem State.modMgmt_rings (f : Mgmt → Mgmt) : (s.modMgmt f).rings = s.rings := rfl
@[simp] theorem State.modMgmt_ports (f : Mgmt → Mgmt) : (s.modMgmt f).ports = s.ports := rfl
@[simp] theorem State.modMgmt_vdt (f : Mgmt → Mgmt) : (s.modMgmt f).vdt = s.vdt := rfl
@[simp] theorem State.modMgmt_ckpt (f : Mgmt → Mgmt) : (s.modMgmt f).ckpt = s.ckpt := rfl
@[simp] theorem State.modMgmt_sgr (f : Mgmt → Mgmt) : (s.modMgmt f).sgr = s.sgr := rfl
@[simp] theorem State.modMgmt_status (f : Mgmt → Mgmt) : (s.modMgmt f).status = s.status := rfl

@[simp] theorem State.modKiln_pending (f : Kiln → Kiln) : (s.modKiln f).pending = s.pending := rfl
@[simp] theorem State.modKiln_now (f : Kiln → Kiln) : (s.modKiln f).now = s.now := rfl
@[simp] theorem State.modKiln_time (f : Kiln → Kiln) : (s.modKiln f).time = s.time := rfl
@[simp] theorem State.modKiln_freeCtr (f : Kiln → Kiln) : (s.modKiln f).freeCtr = s.freeCtr := rfl
@[simp] theorem State.modKiln_tiles (f : Kiln → Kiln) : (s.modKiln f).tiles = s.tiles := rfl
@[simp] theorem State.modKiln_fields (f : Kiln → Kiln) : (s.modKiln f).fields = s.fields := rfl
@[simp] theorem State.modKiln_blades (f : Kiln → Kiln) : (s.modKiln f).blades = s.blades := rfl
@[simp] theorem State.modKiln_mgmt (f : Kiln → Kiln) : (s.modKiln f).mgmt = s.mgmt := rfl
@[simp] theorem State.modKiln_south (f : Kiln → Kiln) : (s.modKiln f).south = s.south := rfl
@[simp] theorem State.modKiln_north (f : Kiln → Kiln) : (s.modKiln f).north = s.north := rfl
@[simp] theorem State.modKiln_map (f : Kiln → Kiln) : (s.modKiln f).map = s.map := rfl
@[simp] theorem State.modKiln_routes (f : Kiln → Kiln) : (s.modKiln f).routes = s.routes := rfl
@[simp] theorem State.modKiln_spans (f : Kiln → Kiln) : (s.modKiln f).spans = s.spans := rfl
@[simp] theorem State.modKiln_kiln (f : Kiln → Kiln) : (s.modKiln f).kiln = f s.kiln := rfl
@[simp] theorem State.modKiln_clk (f : Kiln → Kiln) : (s.modKiln f).clk = s.clk := rfl
@[simp] theorem State.modKiln_windows (f : Kiln → Kiln) : (s.modKiln f).windows = s.windows := rfl
@[simp] theorem State.modKiln_rings (f : Kiln → Kiln) : (s.modKiln f).rings = s.rings := rfl
@[simp] theorem State.modKiln_ports (f : Kiln → Kiln) : (s.modKiln f).ports = s.ports := rfl
@[simp] theorem State.modKiln_vdt (f : Kiln → Kiln) : (s.modKiln f).vdt = s.vdt := rfl
@[simp] theorem State.modKiln_ckpt (f : Kiln → Kiln) : (s.modKiln f).ckpt = s.ckpt := rfl
@[simp] theorem State.modKiln_sgr (f : Kiln → Kiln) : (s.modKiln f).sgr = s.sgr := rfl
@[simp] theorem State.modKiln_status (f : Kiln → Kiln) : (s.modKiln f).status = s.status := rfl

@[simp] theorem State.modClk_pending (f : Clk → Clk) : (s.modClk f).pending = s.pending := rfl
@[simp] theorem State.modClk_now (f : Clk → Clk) : (s.modClk f).now = s.now := rfl
@[simp] theorem State.modClk_time (f : Clk → Clk) : (s.modClk f).time = s.time := rfl
@[simp] theorem State.modClk_freeCtr (f : Clk → Clk) : (s.modClk f).freeCtr = s.freeCtr := rfl
@[simp] theorem State.modClk_tiles (f : Clk → Clk) : (s.modClk f).tiles = s.tiles := rfl
@[simp] theorem State.modClk_fields (f : Clk → Clk) : (s.modClk f).fields = s.fields := rfl
@[simp] theorem State.modClk_blades (f : Clk → Clk) : (s.modClk f).blades = s.blades := rfl
@[simp] theorem State.modClk_mgmt (f : Clk → Clk) : (s.modClk f).mgmt = s.mgmt := rfl
@[simp] theorem State.modClk_south (f : Clk → Clk) : (s.modClk f).south = s.south := rfl
@[simp] theorem State.modClk_north (f : Clk → Clk) : (s.modClk f).north = s.north := rfl
@[simp] theorem State.modClk_map (f : Clk → Clk) : (s.modClk f).map = s.map := rfl
@[simp] theorem State.modClk_routes (f : Clk → Clk) : (s.modClk f).routes = s.routes := rfl
@[simp] theorem State.modClk_spans (f : Clk → Clk) : (s.modClk f).spans = s.spans := rfl
@[simp] theorem State.modClk_kiln (f : Clk → Clk) : (s.modClk f).kiln = s.kiln := rfl
@[simp] theorem State.modClk_clk (f : Clk → Clk) : (s.modClk f).clk = f s.clk := rfl
@[simp] theorem State.modClk_windows (f : Clk → Clk) : (s.modClk f).windows = s.windows := rfl
@[simp] theorem State.modClk_rings (f : Clk → Clk) : (s.modClk f).rings = s.rings := rfl
@[simp] theorem State.modClk_ports (f : Clk → Clk) : (s.modClk f).ports = s.ports := rfl
@[simp] theorem State.modClk_vdt (f : Clk → Clk) : (s.modClk f).vdt = s.vdt := rfl
@[simp] theorem State.modClk_ckpt (f : Clk → Clk) : (s.modClk f).ckpt = s.ckpt := rfl
@[simp] theorem State.modClk_sgr (f : Clk → Clk) : (s.modClk f).sgr = s.sgr := rfl
@[simp] theorem State.modClk_status (f : Clk → Clk) : (s.modClk f).status = s.status := rfl

@[simp] theorem State.modStatus_pending (f : Status → Status) : (s.modStatus f).pending = s.pending := rfl
@[simp] theorem State.modStatus_now (f : Status → Status) : (s.modStatus f).now = s.now := rfl
@[simp] theorem State.modStatus_time (f : Status → Status) : (s.modStatus f).time = s.time := rfl
@[simp] theorem State.modStatus_freeCtr (f : Status → Status) : (s.modStatus f).freeCtr = s.freeCtr := rfl
@[simp] theorem State.modStatus_tiles (f : Status → Status) : (s.modStatus f).tiles = s.tiles := rfl
@[simp] theorem State.modStatus_fields (f : Status → Status) : (s.modStatus f).fields = s.fields := rfl
@[simp] theorem State.modStatus_blades (f : Status → Status) : (s.modStatus f).blades = s.blades := rfl
@[simp] theorem State.modStatus_mgmt (f : Status → Status) : (s.modStatus f).mgmt = s.mgmt := rfl
@[simp] theorem State.modStatus_south (f : Status → Status) : (s.modStatus f).south = s.south := rfl
@[simp] theorem State.modStatus_north (f : Status → Status) : (s.modStatus f).north = s.north := rfl
@[simp] theorem State.modStatus_map (f : Status → Status) : (s.modStatus f).map = s.map := rfl
@[simp] theorem State.modStatus_routes (f : Status → Status) : (s.modStatus f).routes = s.routes := rfl
@[simp] theorem State.modStatus_spans (f : Status → Status) : (s.modStatus f).spans = s.spans := rfl
@[simp] theorem State.modStatus_kiln (f : Status → Status) : (s.modStatus f).kiln = s.kiln := rfl
@[simp] theorem State.modStatus_clk (f : Status → Status) : (s.modStatus f).clk = s.clk := rfl
@[simp] theorem State.modStatus_windows (f : Status → Status) : (s.modStatus f).windows = s.windows := rfl
@[simp] theorem State.modStatus_rings (f : Status → Status) : (s.modStatus f).rings = s.rings := rfl
@[simp] theorem State.modStatus_ports (f : Status → Status) : (s.modStatus f).ports = s.ports := rfl
@[simp] theorem State.modStatus_vdt (f : Status → Status) : (s.modStatus f).vdt = s.vdt := rfl
@[simp] theorem State.modStatus_ckpt (f : Status → Status) : (s.modStatus f).ckpt = s.ckpt := rfl
@[simp] theorem State.modStatus_sgr (f : Status → Status) : (s.modStatus f).sgr = s.sgr := rfl
@[simp] theorem State.modStatus_status (f : Status → Status) : (s.modStatus f).status = f s.status := rfl

@[simp] theorem State.modVdt_pending (f : Viaduct → Viaduct) : (s.modVdt f).pending = s.pending := rfl
@[simp] theorem State.modVdt_now (f : Viaduct → Viaduct) : (s.modVdt f).now = s.now := rfl
@[simp] theorem State.modVdt_time (f : Viaduct → Viaduct) : (s.modVdt f).time = s.time := rfl
@[simp] theorem State.modVdt_freeCtr (f : Viaduct → Viaduct) : (s.modVdt f).freeCtr = s.freeCtr := rfl
@[simp] theorem State.modVdt_tiles (f : Viaduct → Viaduct) : (s.modVdt f).tiles = s.tiles := rfl
@[simp] theorem State.modVdt_fields (f : Viaduct → Viaduct) : (s.modVdt f).fields = s.fields := rfl
@[simp] theorem State.modVdt_blades (f : Viaduct → Viaduct) : (s.modVdt f).blades = s.blades := rfl
@[simp] theorem State.modVdt_mgmt (f : Viaduct → Viaduct) : (s.modVdt f).mgmt = s.mgmt := rfl
@[simp] theorem State.modVdt_south (f : Viaduct → Viaduct) : (s.modVdt f).south = s.south := rfl
@[simp] theorem State.modVdt_north (f : Viaduct → Viaduct) : (s.modVdt f).north = s.north := rfl
@[simp] theorem State.modVdt_map (f : Viaduct → Viaduct) : (s.modVdt f).map = s.map := rfl
@[simp] theorem State.modVdt_routes (f : Viaduct → Viaduct) : (s.modVdt f).routes = s.routes := rfl
@[simp] theorem State.modVdt_spans (f : Viaduct → Viaduct) : (s.modVdt f).spans = s.spans := rfl
@[simp] theorem State.modVdt_kiln (f : Viaduct → Viaduct) : (s.modVdt f).kiln = s.kiln := rfl
@[simp] theorem State.modVdt_clk (f : Viaduct → Viaduct) : (s.modVdt f).clk = s.clk := rfl
@[simp] theorem State.modVdt_windows (f : Viaduct → Viaduct) : (s.modVdt f).windows = s.windows := rfl
@[simp] theorem State.modVdt_rings (f : Viaduct → Viaduct) : (s.modVdt f).rings = s.rings := rfl
@[simp] theorem State.modVdt_ports (f : Viaduct → Viaduct) : (s.modVdt f).ports = s.ports := rfl
@[simp] theorem State.modVdt_vdt (f : Viaduct → Viaduct) : (s.modVdt f).vdt = f s.vdt := rfl
@[simp] theorem State.modVdt_ckpt (f : Viaduct → Viaduct) : (s.modVdt f).ckpt = s.ckpt := rfl
@[simp] theorem State.modVdt_sgr (f : Viaduct → Viaduct) : (s.modVdt f).sgr = s.sgr := rfl
@[simp] theorem State.modVdt_status (f : Viaduct → Viaduct) : (s.modVdt f).status = s.status := rfl

@[simp] theorem State.modCkpt_pending (f : Ckpt → Ckpt) : (s.modCkpt f).pending = s.pending := rfl
@[simp] theorem State.modCkpt_now (f : Ckpt → Ckpt) : (s.modCkpt f).now = s.now := rfl
@[simp] theorem State.modCkpt_time (f : Ckpt → Ckpt) : (s.modCkpt f).time = s.time := rfl
@[simp] theorem State.modCkpt_freeCtr (f : Ckpt → Ckpt) : (s.modCkpt f).freeCtr = s.freeCtr := rfl
@[simp] theorem State.modCkpt_tiles (f : Ckpt → Ckpt) : (s.modCkpt f).tiles = s.tiles := rfl
@[simp] theorem State.modCkpt_fields (f : Ckpt → Ckpt) : (s.modCkpt f).fields = s.fields := rfl
@[simp] theorem State.modCkpt_blades (f : Ckpt → Ckpt) : (s.modCkpt f).blades = s.blades := rfl
@[simp] theorem State.modCkpt_mgmt (f : Ckpt → Ckpt) : (s.modCkpt f).mgmt = s.mgmt := rfl
@[simp] theorem State.modCkpt_south (f : Ckpt → Ckpt) : (s.modCkpt f).south = s.south := rfl
@[simp] theorem State.modCkpt_north (f : Ckpt → Ckpt) : (s.modCkpt f).north = s.north := rfl
@[simp] theorem State.modCkpt_map (f : Ckpt → Ckpt) : (s.modCkpt f).map = s.map := rfl
@[simp] theorem State.modCkpt_routes (f : Ckpt → Ckpt) : (s.modCkpt f).routes = s.routes := rfl
@[simp] theorem State.modCkpt_spans (f : Ckpt → Ckpt) : (s.modCkpt f).spans = s.spans := rfl
@[simp] theorem State.modCkpt_kiln (f : Ckpt → Ckpt) : (s.modCkpt f).kiln = s.kiln := rfl
@[simp] theorem State.modCkpt_clk (f : Ckpt → Ckpt) : (s.modCkpt f).clk = s.clk := rfl
@[simp] theorem State.modCkpt_windows (f : Ckpt → Ckpt) : (s.modCkpt f).windows = s.windows := rfl
@[simp] theorem State.modCkpt_rings (f : Ckpt → Ckpt) : (s.modCkpt f).rings = s.rings := rfl
@[simp] theorem State.modCkpt_ports (f : Ckpt → Ckpt) : (s.modCkpt f).ports = s.ports := rfl
@[simp] theorem State.modCkpt_vdt (f : Ckpt → Ckpt) : (s.modCkpt f).vdt = s.vdt := rfl
@[simp] theorem State.modCkpt_ckpt (f : Ckpt → Ckpt) : (s.modCkpt f).ckpt = f s.ckpt := rfl
@[simp] theorem State.modCkpt_sgr (f : Ckpt → Ckpt) : (s.modCkpt f).sgr = s.sgr := rfl
@[simp] theorem State.modCkpt_status (f : Ckpt → Ckpt) : (s.modCkpt f).status = s.status := rfl

@[simp] theorem State.modSgr_pending (f : Sagger → Sagger) : (s.modSgr f).pending = s.pending := rfl
@[simp] theorem State.modSgr_now (f : Sagger → Sagger) : (s.modSgr f).now = s.now := rfl
@[simp] theorem State.modSgr_time (f : Sagger → Sagger) : (s.modSgr f).time = s.time := rfl
@[simp] theorem State.modSgr_freeCtr (f : Sagger → Sagger) : (s.modSgr f).freeCtr = s.freeCtr := rfl
@[simp] theorem State.modSgr_tiles (f : Sagger → Sagger) : (s.modSgr f).tiles = s.tiles := rfl
@[simp] theorem State.modSgr_fields (f : Sagger → Sagger) : (s.modSgr f).fields = s.fields := rfl
@[simp] theorem State.modSgr_blades (f : Sagger → Sagger) : (s.modSgr f).blades = s.blades := rfl
@[simp] theorem State.modSgr_mgmt (f : Sagger → Sagger) : (s.modSgr f).mgmt = s.mgmt := rfl
@[simp] theorem State.modSgr_south (f : Sagger → Sagger) : (s.modSgr f).south = s.south := rfl
@[simp] theorem State.modSgr_north (f : Sagger → Sagger) : (s.modSgr f).north = s.north := rfl
@[simp] theorem State.modSgr_map (f : Sagger → Sagger) : (s.modSgr f).map = s.map := rfl
@[simp] theorem State.modSgr_routes (f : Sagger → Sagger) : (s.modSgr f).routes = s.routes := rfl
@[simp] theorem State.modSgr_spans (f : Sagger → Sagger) : (s.modSgr f).spans = s.spans := rfl
@[simp] theorem State.modSgr_kiln (f : Sagger → Sagger) : (s.modSgr f).kiln = s.kiln := rfl
@[simp] theorem State.modSgr_clk (f : Sagger → Sagger) : (s.modSgr f).clk = s.clk := rfl
@[simp] theorem State.modSgr_windows (f : Sagger → Sagger) : (s.modSgr f).windows = s.windows := rfl
@[simp] theorem State.modSgr_rings (f : Sagger → Sagger) : (s.modSgr f).rings = s.rings := rfl
@[simp] theorem State.modSgr_ports (f : Sagger → Sagger) : (s.modSgr f).ports = s.ports := rfl
@[simp] theorem State.modSgr_vdt (f : Sagger → Sagger) : (s.modSgr f).vdt = s.vdt := rfl
@[simp] theorem State.modSgr_ckpt (f : Sagger → Sagger) : (s.modSgr f).ckpt = s.ckpt := rfl
@[simp] theorem State.modSgr_sgr (f : Sagger → Sagger) : (s.modSgr f).sgr = f s.sgr := rfl
@[simp] theorem State.modSgr_status (f : Sagger → Sagger) : (s.modSgr f).status = s.status := rfl

@[simp] theorem State.modKs_pending (k : Side) (f : Keystone → Keystone) : (s.modKs k f).pending = s.pending := by cases k <;> rfl
@[simp] theorem State.modKs_now (k : Side) (f : Keystone → Keystone) : (s.modKs k f).now = s.now := by cases k <;> rfl
@[simp] theorem State.modKs_time (k : Side) (f : Keystone → Keystone) : (s.modKs k f).time = s.time := by cases k <;> rfl
@[simp] theorem State.modKs_freeCtr (k : Side) (f : Keystone → Keystone) : (s.modKs k f).freeCtr = s.freeCtr := by cases k <;> rfl
@[simp] theorem State.modKs_tiles (k : Side) (f : Keystone → Keystone) : (s.modKs k f).tiles = s.tiles := by cases k <;> rfl
@[simp] theorem State.modKs_fields (k : Side) (f : Keystone → Keystone) : (s.modKs k f).fields = s.fields := by cases k <;> rfl
@[simp] theorem State.modKs_blades (k : Side) (f : Keystone → Keystone) : (s.modKs k f).blades = s.blades := by cases k <;> rfl
@[simp] theorem State.modKs_mgmt (k : Side) (f : Keystone → Keystone) : (s.modKs k f).mgmt = s.mgmt := by cases k <;> rfl
@[simp] theorem State.modKs_map (k : Side) (f : Keystone → Keystone) : (s.modKs k f).map = s.map := by cases k <;> rfl
@[simp] theorem State.modKs_routes (k : Side) (f : Keystone → Keystone) : (s.modKs k f).routes = s.routes := by cases k <;> rfl
@[simp] theorem State.modKs_spans (k : Side) (f : Keystone → Keystone) : (s.modKs k f).spans = s.spans := by cases k <;> rfl
@[simp] theorem State.modKs_kiln (k : Side) (f : Keystone → Keystone) : (s.modKs k f).kiln = s.kiln := by cases k <;> rfl
@[simp] theorem State.modKs_clk (k : Side) (f : Keystone → Keystone) : (s.modKs k f).clk = s.clk := by cases k <;> rfl
@[simp] theorem State.modKs_windows (k : Side) (f : Keystone → Keystone) : (s.modKs k f).windows = s.windows := by cases k <;> rfl
@[simp] theorem State.modKs_rings (k : Side) (f : Keystone → Keystone) : (s.modKs k f).rings = s.rings := by cases k <;> rfl
@[simp] theorem State.modKs_ports (k : Side) (f : Keystone → Keystone) : (s.modKs k f).ports = s.ports := by cases k <;> rfl
@[simp] theorem State.modKs_vdt (k : Side) (f : Keystone → Keystone) : (s.modKs k f).vdt = s.vdt := by cases k <;> rfl
@[simp] theorem State.modKs_ckpt (k : Side) (f : Keystone → Keystone) : (s.modKs k f).ckpt = s.ckpt := by cases k <;> rfl
@[simp] theorem State.modKs_sgr (k : Side) (f : Keystone → Keystone) : (s.modKs k f).sgr = s.sgr := by cases k <;> rfl
@[simp] theorem State.modKs_status (k : Side) (f : Keystone → Keystone) : (s.modKs k f).status = s.status := by cases k <;> rfl

@[simp] theorem State.ks_modKs (j k : Side) (f : Keystone → Keystone) :
    (s.modKs k f).ks j = if j = k then f (s.ks j) else s.ks j := by cases j <;> cases k <;> rfl

end Sys2Proof.Machine
end

