-- ==== Sys2Proof/Laws/Tab.lean ====
section
/-! SUPPORT. Tables and memory: a read after a write, and the canonical form that every write keeps. -/

namespace Sys2Proof.Machine

variable {α : Type}

theorem tGet_tPut_same (d : α) (m : Tab α) (k : Nat) (v : α) : tGet d (tPut m k v) k = v := by
  induction m with
  | nil => simp [tPut, tGet]
  | cons e m ih =>
    simp only [tPut]; split
    · simp [tGet]
    · split <;> simp_all [tGet]

theorem tGet_tPut_ne (d : α) (m : Tab α) {j k : Nat} (v : α) (h : j ≠ k) : tGet d (tPut m k v) j = tGet d m j := by
  induction m with
  | nil => simp [tPut, tGet, Ne.symm h]
  | cons e m ih =>
    simp only [tPut]; split
    · simp [tGet, Ne.symm h]
    · split
      · next h1 => subst h1; simp [tGet, Ne.symm h]
      · simp [tGet, ih]

@[simp] theorem tGet_tPut (d : α) (m : Tab α) (j k : Nat) (v : α) :
    tGet d (tPut m k v) j = if j = k then v else tGet d m j := by
  split
  · next h => subst h; exact tGet_tPut_same d m j v
  · next h => exact tGet_tPut_ne d m v h

@[simp] theorem tGet?_tPut (m : Tab α) (j k : Nat) (v : α) :
    tGet? (tPut m k v) j = if j = k then some v else tGet? m j := by
  induction m with
  | nil => by_cases h : j = k <;> simp [tPut, tGet?, h]; exact fun e => absurd e.symm h
  | cons e m ih =>
    simp only [tPut]
    by_cases h : j = k
    · subst h; split
      · simp [tGet?]
      · split
        · simp [tGet?]
        · next h2 => simp [tGet?, h2, ih]
    · have h' : ¬ k = j := fun e => h e.symm
      split
      · simp [tGet?, h']
      · split
        · next h1 => subst h1; simp [tGet?, h']
        · simp [tGet?, ih, h]

theorem tGet_eq_getD (d : α) (m : Tab α) (k : Nat) : tGet d m k = (tGet? m k).getD d := by
  induction m with
  | nil => rfl
  | cons e m ih => simp only [tGet, tGet?]; split <;> simp [ih]

theorem tDel_cons (e : Nat × α) (m : Tab α) (k : Nat) : tDel (e :: m) k = if e.1 = k then tDel m k else e :: tDel m k := by
  by_cases h : e.1 = k <;> simp [tDel, List.filter, h]

@[simp] theorem tGet_tDel_same (d : α) (m : Tab α) (k : Nat) : tGet d (tDel m k) k = d := by
  induction m with
  | nil => rfl
  | cons e m ih =>
    rw [tDel_cons]; split
    · exact ih
    · next h => simp [tGet, h, ih]

theorem tGet_tDel_ne (d : α) (m : Tab α) {j k : Nat} (h : j ≠ k) : tGet d (tDel m k) j = tGet d m j := by
  induction m with
  | nil => rfl
  | cons e m ih =>
    rw [tDel_cons]; split
    · next h1 => subst h1; simp [tGet, ih, Ne.symm h]
    · simp [tGet, ih]

theorem tGet_tDel (d : α) (m : Tab α) (j k : Nat) : tGet d (tDel m k) j = if j = k then d else tGet d m j := by
  split
  · next h => subst h; simp
  · next h => exact tGet_tDel_ne d m h

@[simp] theorem tGet_tSet [DecidableEq α] (d : α) (m : Tab α) (j k : Nat) (v : α) :
    tGet d (tSet d m k v) j = if j = k then v else tGet d m j := by
  unfold tSet; split
  · next h => subst h; exact tGet_tDel _ m j k
  · exact tGet_tPut d m j k v

@[simp] theorem tPut_tPut (m : Tab α) (k : Nat) (v w : α) : tPut (tPut m k v) k w = tPut m k w := by
  induction m with
  | nil => simp [tPut]
  | cons e m ih =>
    by_cases h1 : k < e.1
    · simp [tPut, h1]
    · by_cases h2 : e.1 = k
      · simp [tPut, h2]
      · simp [tPut, h1, h2, ih]

/-! ## Rising keys -/

theorem tSorted_mono {lo lo' : Nat} (h : lo' ≤ lo) (m : Tab α) (w : tSorted lo m = true) : tSorted lo' m = true := by
  cases m with
  | nil => rfl
  | cons e m => simp [tSorted] at *; exact ⟨by omega, w.2⟩

theorem tSorted_tPut {lo k : Nat} (m : Tab α) (v : α) (h : lo ≤ k) (w : tSorted lo m = true) :
    tSorted lo (tPut m k v) = true := by
  induction m generalizing lo with
  | nil => simp [tPut, tSorted, h]
  | cons e m ih =>
    simp only [tPut]
    simp [tSorted] at w
    split
    · simp [tSorted]; exact ⟨h, by omega, w.2⟩
    · split
      · next h1 => subst h1; simp [tSorted, w]
      · simp [tSorted, w]; exact ih (by omega) w.2

theorem tSorted_filter {lo : Nat} (m : Tab α) (p : Nat × α → Bool) (w : tSorted lo m = true) :
    tSorted lo (m.filter p) = true := by
  induction m generalizing lo with
  | nil => rfl
  | cons e m ih =>
    simp [tSorted] at w
    simp only [List.filter]; split
    · simp [tSorted, w]; exact ih w.2
    · exact tSorted_mono (by omega) _ (ih w.2)

theorem tSorted_map {β : Type} {lo : Nat} (m : Tab α) (f : Nat × α → Nat × β) (hf : ∀ e, (f e).1 = e.1)
    (w : tSorted lo m = true) : tSorted lo (m.map f) = true := by
  induction m generalizing lo with
  | nil => rfl
  | cons e m ih => simp [tSorted] at *; rw [hf]; exact ⟨w.1, ih w.2⟩

/-! ## Memory -/

@[simp] theorem mRead_mWrite (d : Byte) (m : Mem) (a b : Nat) (v : Byte) :
    mRead d (mWrite d m a v) b = if b = a then v else mRead d m b := by
  simp [mRead, mWrite]

theorem mem_tPut_val {m : Tab α} {k : Nat} {v : α} {e : Nat × α} (h : e ∈ tPut m k v) : e = (k, v) ∨ e ∈ m := by
  induction m with
  | nil => simpa [tPut] using h
  | cons c m ih =>
    simp only [tPut] at h
    split at h
    · simpa using h
    · split at h
      · simp at h; rcases h with h | h <;> simp [h]
      · simp at h; rcases h with h | h
        · simp [h]
        · rcases ih h with h | h <;> simp [h]

/-- A write keeps the canonical form. -/
theorem Mem.wf_mWrite {d : Byte} {m : Mem} (a : Nat) (v : Byte) (h : m.wf d = true) : Mem.wf d (mWrite d m a v) = true := by
  simp only [Mem.wf, Bool.and_eq_true, List.all_eq_true, decide_eq_true_eq] at *
  unfold mWrite tSet; split
  · exact ⟨tSorted_filter _ _ h.1, fun e he => h.2 e (List.mem_of_mem_filter he)⟩
  · next hv =>
    refine ⟨tSorted_tPut _ _ (Nat.zero_le _) h.1, fun e he => ?_⟩
    rcases mem_tPut_val he with he | he
    · simp [he, hv]
    · exact h.2 e he

theorem Mem.wf_mPutBytes {d : Byte} {m : Mem} (a : Nat) (bs : List Byte) (h : m.wf d = true) :
    Mem.wf d (mPutBytes d m a bs) = true := by
  induction bs generalizing m a with
  | nil => exact h
  | cons b bs ih => exact ih (a + 1) (Mem.wf_mWrite a b h)

theorem Mem.wf_filter {d : Byte} {m : Mem} (p : Nat × Byte → Bool) (h : m.wf d = true) : Mem.wf d (m.filter p) = true := by
  simp only [Mem.wf, Bool.and_eq_true, List.all_eq_true, decide_eq_true_eq] at *
  exact ⟨tSorted_filter _ _ h.1, fun e he => h.2 e (List.mem_of_mem_filter he)⟩

@[simp] theorem Mem.wf_nil (d : Byte) : Mem.wf d [] = true := rfl

/-- Bytes outside a written range read as before. -/
theorem mRead_mPutBytes_out {d : Byte} (m : Mem) (a : Nat) (bs : List Byte) (b : Nat) (h : b < a ∨ a + bs.length ≤ b) :
    mRead d (mPutBytes d m a bs) b = mRead d m b := by
  induction bs generalizing m a with
  | nil => rfl
  | cons c bs ih =>
    simp only [mPutBytes, List.length_cons] at *
    rw [ih _ _ (by omega), mRead_mWrite, if_neg (by omega)]

/-- A written byte reads back. -/
theorem mRead_mPutBytes_in {d : Byte} (m : Mem) (a : Nat) (bs : List Byte) (j : Nat) (h : j < bs.length) :
    mRead d (mPutBytes d m a bs) (a + j) = bs[j] := by
  induction bs generalizing m a j with
  | nil => simp at h
  | cons c bs ih =>
    cases j with
    | zero => simp only [mPutBytes]; rw [mRead_mPutBytes_out _ _ _ _ (by omega)]; simp
    | succ j =>
      have := ih (mWrite d m a c) (a + 1) j (by simpa using h)
      simp only [mPutBytes]; rw [show a + (j + 1) = a + 1 + j by omega]; simpa using this

end Sys2Proof.Machine
end

