-- ==== Sys2Proof/Laws/Units.lean ====
section
/-! SUPPORT. A unit read after a unit written: tiles, spans, fields, ports, Viaduct ports, queues, registers. -/

namespace Sys2Proof.Machine

@[simp] theorem State.tile_setTile (s : State) (t u : Nat) (x : Tile) :
    (s.setTile t x).tile u = if u = t then x else s.tile u := by simp [State.tile, State.setTile]

@[simp] theorem State.tile_modTile (s : State) (t u : Nat) (f : Tile → Tile) :
    (s.modTile t f).tile u = if u = t then f (s.tile u) else s.tile u := by
  simp only [State.modTile, State.tile_setTile]; split <;> simp_all

@[simp] theorem State.modTile_modTile (s : State) (t : Nat) (f g : Tile → Tile) :
    (s.modTile t f).modTile t g = s.modTile t fun x => g (f x) := by
  simp [State.modTile, State.setTile, State.tile]

@[simp] theorem State.modSpan_modSpan (s : State) (t : Nat) (f g : Span → Span) :
    (s.modSpan t f).modSpan t g = s.modSpan t fun x => g (f x) := by
  simp [State.modSpan, State.setSpan, State.span]

@[simp] theorem State.modPort_modPort (s : State) (t : Nat) (f g : PciePort → PciePort) :
    (s.modPort t f).modPort t g = s.modPort t fun x => g (f x) := by
  simp [State.modPort, State.setPort, State.port]

@[simp] theorem State.span_modSpan (s : State) (n k : Nat) (f : Span → Span) :
    (s.modSpan n f).span k = if k = n then f (s.span k) else s.span k := by
  simp only [State.modSpan, State.setSpan, State.span, tGet_tPut]; split <;> simp_all

@[simp] theorem State.field_modField (s : State) (n k : Nat) (f : Field → Field) :
    (s.modField n f).field k = if k = n then f (s.field k) else s.field k := by
  simp only [State.modField, State.setField, State.field, tGet_tPut]; split <;> simp_all

@[simp] theorem State.port_modPort (s : State) (n k : Nat) (f : PciePort → PciePort) :
    (s.modPort n f).port k = if k = n then f (s.port k) else s.port k := by
  simp only [State.modPort, State.setPort, State.port, tGet_tPut]; split <;> simp_all

@[simp] theorem State.vport_modVport (s : State) (n k : Nat) (f : VdtPort → VdtPort) :
    (s.modVport n f).vport k = if k = n then f (s.vport k) else s.vport k := by
  simp only [State.modVport, State.setVport, State.vport, tGet_tPut]; split <;> simp_all

@[simp] theorem State.tile_modSpan (s : State) (n t : Nat) (f : Span → Span) : (s.modSpan n f).tile t = s.tile t := rfl
@[simp] theorem State.span_modTile (s : State) (n t : Nat) (f : Tile → Tile) : (s.modTile t f).span n = s.span n := rfl
@[simp] theorem State.tile_modStatus (s : State) (t : Nat) (f : Status → Status) : (s.modStatus f).tile t = s.tile t := rfl
@[simp] theorem State.tile_modMgmt (s : State) (t : Nat) (f : Mgmt → Mgmt) : (s.modMgmt f).tile t = s.tile t := rfl
@[simp] theorem State.span_modMgmt (s : State) (n : Nat) (f : Mgmt → Mgmt) : (s.modMgmt f).span n = s.span n := rfl
@[simp] theorem State.port_modTile (s : State) (h t : Nat) (f : Tile → Tile) : (s.modTile t f).port h = s.port h := rfl
@[simp] theorem State.vport_modTile (s : State) (p t : Nat) (f : Tile → Tile) : (s.modTile t f).vport p = s.vport p := rfl
@[simp] theorem State.field_modTile (s : State) (k t : Nat) (f : Tile → Tile) : (s.modTile t f).field k = s.field k := rfl

@[simp] theorem Tile.queue_setQueue (x : Tile) (i j : Nat) (q : Queue) :
    (x.setQueue i q).queue j = if j = i then q else x.queue j := by simp [Tile.queue, Tile.setQueue]

end Sys2Proof.Machine
end

