-- ==== Sys2Proof/Laws/Events.lean ====
section
/-! SUPPORT. Events and counters touch the logs and counts alone: what a report leaves of tiles and of the rest. -/

namespace Sys2Proof.Machine

variable (s : State)

@[simp] theorem State.report_pending (e : EventReport) : (s.report e).pending = s.pending := rfl
@[simp] theorem State.report_now (e : EventReport) : (s.report e).now = s.now := rfl
@[simp] theorem State.report_time (e : EventReport) : (s.report e).time = s.time := rfl
@[simp] theorem State.report_freeCtr (e : EventReport) : (s.report e).freeCtr = s.freeCtr := rfl
@[simp] theorem State.report_fields (e : EventReport) : (s.report e).fields = s.fields := rfl
@[simp] theorem State.report_blades (e : EventReport) : (s.report e).blades = s.blades := rfl
@[simp] theorem State.report_mgmt (e : EventReport) : (s.report e).mgmt = s.mgmt := rfl
@[simp] theorem State.report_south (e : EventReport) : (s.report e).south = s.south := rfl
@[simp] theorem State.report_north (e : EventReport) : (s.report e).north = s.north := rfl
@[simp] theorem State.report_map (e : EventReport) : (s.report e).map = s.map := rfl
@[simp] theorem State.report_routes (e : EventReport) : (s.report e).routes = s.routes := rfl
@[simp] theorem State.report_spans (e : EventReport) : (s.report e).spans = s.spans := rfl
@[simp] theorem State.report_kiln (e : EventReport) : (s.report e).kiln = s.kiln := rfl
@[simp] theorem State.report_clk (e : EventReport) : (s.report e).clk = s.clk := rfl
@[simp] theorem State.report_windows (e : EventReport) : (s.report e).windows = s.windows := rfl
@[simp] theorem State.report_rings (e : EventReport) : (s.report e).rings = s.rings := rfl
@[simp] theorem State.report_ports (e : EventReport) : (s.report e).ports = s.ports := rfl
@[simp] theorem State.report_vdt (e : EventReport) : (s.report e).vdt = s.vdt := rfl
@[simp] theorem State.report_ckpt (e : EventReport) : (s.report e).ckpt = s.ckpt := rfl
@[simp] theorem State.report_sgr (e : EventReport) : (s.report e).sgr = s.sgr := rfl
@[simp] theorem State.report_tiles (e : EventReport) : (s.report e).tiles = s.tiles := rfl
@[simp] theorem State.report_tile (e : EventReport) (u : Nat) : (s.report e).tile u = s.tile u := rfl

@[simp] theorem State.tileEvent_tile_seq (t c a u : Nat) : ((s.tileEvent t c a).tile u).seq = (s.tile u).seq := by
  unfold State.tileEvent; split
  · by_cases h : u = t <;> simp [h]
  · split <;> by_cases h : u = t <;> simp [h]
@[simp] theorem State.tileEvent_tile_istore (t c a u : Nat) : ((s.tileEvent t c a).tile u).istore = (s.tile u).istore := by
  unfold State.tileEvent; split
  · by_cases h : u = t <;> simp [h]
  · split <;> by_cases h : u = t <;> simp [h]
@[simp] theorem State.tileEvent_tile_acts (t c a u : Nat) : ((s.tileEvent t c a).tile u).acts = (s.tile u).acts := by
  unfold State.tileEvent; split
  · by_cases h : u = t <;> simp [h]
  · split <;> by_cases h : u = t <;> simp [h]
@[simp] theorem State.tileEvent_tile_df (t c a u : Nat) : ((s.tileEvent t c a).tile u).df = (s.tile u).df := by
  unfold State.tileEvent; split
  · by_cases h : u = t <;> simp [h]
  · split <;> by_cases h : u = t <;> simp [h]
@[simp] theorem State.tileEvent_tile_eng (t c a u : Nat) : ((s.tileEvent t c a).tile u).eng = (s.tile u).eng := by
  unfold State.tileEvent; split
  · by_cases h : u = t <;> simp [h]
  · split <;> by_cases h : u = t <;> simp [h]
@[simp] theorem State.tileEvent_tile_pad (t c a u : Nat) : ((s.tileEvent t c a).tile u).pad = (s.tile u).pad := by
  unfold State.tileEvent; split
  · by_cases h : u = t <;> simp [h]
  · split <;> by_cases h : u = t <;> simp [h]
@[simp] theorem State.tileEvent_tile_ni (t c a u : Nat) : ((s.tileEvent t c a).tile u).ni = (s.tile u).ni := by
  unfold State.tileEvent; split
  · by_cases h : u = t <;> simp [h]
  · split <;> by_cases h : u = t <;> simp [h]
@[simp] theorem State.tileEvent_tile_queues (t c a u : Nat) : ((s.tileEvent t c a).tile u).queues = (s.tile u).queues := by
  unfold State.tileEvent; split
  · by_cases h : u = t <;> simp [h]
  · split <;> by_cases h : u = t <;> simp [h]
@[simp] theorem State.tileEvent_tile_comb (t c a u : Nat) : ((s.tileEvent t c a).tile u).comb = (s.tile u).comb := by
  unfold State.tileEvent; split
  · by_cases h : u = t <;> simp [h]
  · split <;> by_cases h : u = t <;> simp [h]
@[simp] theorem State.tileEvent_tile_rtr (t c a u : Nat) : ((s.tileEvent t c a).tile u).rtr = (s.tile u).rtr := by
  unfold State.tileEvent; split
  · by_cases h : u = t <;> simp [h]
  · split <;> by_cases h : u = t <;> simp [h]
@[simp] theorem State.tileEvent_tile_glost (t c a u : Nat) : ((s.tileEvent t c a).tile u).glost = (s.tile u).glost := by
  unfold State.tileEvent; split
  · by_cases h : u = t <;> simp [h]
  · split <;> by_cases h : u = t <;> simp [h]
@[simp] theorem State.tileEvent_tile_course (t c a u : Nat) : ((s.tileEvent t c a).tile u).course = (s.tile u).course := by
  unfold State.tileEvent; split
  · by_cases h : u = t <;> simp [h]
  · split <;> by_cases h : u = t <;> simp [h]
@[simp] theorem State.tileEvent_tile_staleRaised (t c a u : Nat) : ((s.tileEvent t c a).tile u).staleRaised = (s.tile u).staleRaised := by
  unfold State.tileEvent; split
  · by_cases h : u = t <;> simp [h]
  · split <;> by_cases h : u = t <;> simp [h]
@[simp] theorem State.tileEvent_tile_held (t c a u : Nat) : ((s.tileEvent t c a).tile u).held = (s.tile u).held := by
  unfold State.tileEvent; split
  · by_cases h : u = t <;> simp [h]
  · split <;> by_cases h : u = t <;> simp [h]
@[simp] theorem State.tileEvent_tile_cnt (t c a u : Nat) : ((s.tileEvent t c a).tile u).cnt = (s.tile u).cnt := by
  unfold State.tileEvent; split
  · by_cases h : u = t <;> simp [h]
  · split <;> by_cases h : u = t <;> simp [h]
@[simp] theorem State.tileEvent_pending (t c a : Nat) : (s.tileEvent t c a).pending = s.pending := by
  unfold State.tileEvent; split
  · rfl
  · split <;> rfl
@[simp] theorem State.tileEvent_now (t c a : Nat) : (s.tileEvent t c a).now = s.now := by
  unfold State.tileEvent; split
  · rfl
  · split <;> rfl
@[simp] theorem State.tileEvent_time (t c a : Nat) : (s.tileEvent t c a).time = s.time := by
  unfold State.tileEvent; split
  · rfl
  · split <;> rfl
@[simp] theorem State.tileEvent_freeCtr (t c a : Nat) : (s.tileEvent t c a).freeCtr = s.freeCtr := by
  unfold State.tileEvent; split
  · rfl
  · split <;> rfl
@[simp] theorem State.tileEvent_fields (t c a : Nat) : (s.tileEvent t c a).fields = s.fields := by
  unfold State.tileEvent; split
  · rfl
  · split <;> rfl
@[simp] theorem State.tileEvent_blades (t c a : Nat) : (s.tileEvent t c a).blades = s.blades := by
  unfold State.tileEvent; split
  · rfl
  · split <;> rfl
@[simp] theorem State.tileEvent_mgmt (t c a : Nat) : (s.tileEvent t c a).mgmt = s.mgmt := by
  unfold State.tileEvent; split
  · rfl
  · split <;> rfl
@[simp] theorem State.tileEvent_south (t c a : Nat) : (s.tileEvent t c a).south = s.south := by
  unfold State.tileEvent; split
  · rfl
  · split <;> rfl
@[simp] theorem State.tileEvent_north (t c a : Nat) : (s.tileEvent t c a).north = s.north := by
  unfold State.tileEvent; split
  · rfl
  · split <;> rfl
@[simp] theorem State.tileEvent_map (t c a : Nat) : (s.tileEvent t c a).map = s.map := by
  unfold State.tileEvent; split
  · rfl
  · split <;> rfl
@[simp] theorem State.tileEvent_routes (t c a : Nat) : (s.tileEvent t c a).routes = s.routes := by
  unfold State.tileEvent; split
  · rfl
  · split <;> rfl
@[simp] theorem State.tileEvent_spans (t c a : Nat) : (s.tileEvent t c a).spans = s.spans := by
  unfold State.tileEvent; split
  · rfl
  · split <;> rfl
@[simp] theorem State.tileEvent_kiln (t c a : Nat) : (s.tileEvent t c a).kiln = s.kiln := by
  unfold State.tileEvent; split
  · rfl
  · split <;> rfl
@[simp] theorem State.tileEvent_clk (t c a : Nat) : (s.tileEvent t c a).clk = s.clk := by
  unfold State.tileEvent; split
  · rfl
  · split <;> rfl
@[simp] theorem State.tileEvent_windows (t c a : Nat) : (s.tileEvent t c a).windows = s.windows := by
  unfold State.tileEvent; split
  · rfl
  · split <;> rfl
@[simp] theorem State.tileEvent_rings (t c a : Nat) : (s.tileEvent t c a).rings = s.rings := by
  unfold State.tileEvent; split
  · rfl
  · split <;> rfl
@[simp] theorem State.tileEvent_ports (t c a : Nat) : (s.tileEvent t c a).ports = s.ports := by
  unfold State.tileEvent; split
  · rfl
  · split <;> rfl
@[simp] theorem State.tileEvent_vdt (t c a : Nat) : (s.tileEvent t c a).vdt = s.vdt := by
  unfold State.tileEvent; split
  · rfl
  · split <;> rfl
@[simp] theorem State.tileEvent_ckpt (t c a : Nat) : (s.tileEvent t c a).ckpt = s.ckpt := by
  unfold State.tileEvent; split
  · rfl
  · split <;> rfl
@[simp] theorem State.tileEvent_sgr (t c a : Nat) : (s.tileEvent t c a).sgr = s.sgr := by
  unfold State.tileEvent; split
  · rfl
  · split <;> rfl

/-- A unit's event changes nothing but the status part. -/
theorem State.event_eq (c k a : Nat) (x y z : Option Nat) (n : Nat) :
    ∃ g, s.event c k a x y z n = { s with status := g } := by
  unfold State.event; simp only
  repeat' split
  all_goals exact ⟨_, rfl⟩

@[simp] theorem State.event_pending (c k a : Nat) (x y z : Option Nat) (n : Nat) :
    (s.event c k a x y z n).pending = s.pending := by
  obtain ⟨g, h⟩ := s.event_eq c k a x y z n; rw [h]
@[simp] theorem State.event_now (c k a : Nat) (x y z : Option Nat) (n : Nat) :
    (s.event c k a x y z n).now = s.now := by
  obtain ⟨g, h⟩ := s.event_eq c k a x y z n; rw [h]
@[simp] theorem State.event_time (c k a : Nat) (x y z : Option Nat) (n : Nat) :
    (s.event c k a x y z n).time = s.time := by
  obtain ⟨g, h⟩ := s.event_eq c k a x y z n; rw [h]
@[simp] theorem State.event_freeCtr (c k a : Nat) (x y z : Option Nat) (n : Nat) :
    (s.event c k a x y z n).freeCtr = s.freeCtr := by
  obtain ⟨g, h⟩ := s.event_eq c k a x y z n; rw [h]
@[simp] theorem State.event_fields (c k a : Nat) (x y z : Option Nat) (n : Nat) :
    (s.event c k a x y z n).fields = s.fields := by
  obtain ⟨g, h⟩ := s.event_eq c k a x y z n; rw [h]
@[simp] theorem State.event_blades (c k a : Nat) (x y z : Option Nat) (n : Nat) :
    (s.event c k a x y z n).blades = s.blades := by
  obtain ⟨g, h⟩ := s.event_eq c k a x y z n; rw [h]
@[simp] theorem State.event_mgmt (c k a : Nat) (x y z : Option Nat) (n : Nat) :
    (s.event c k a x y z n).mgmt = s.mgmt := by
  obtain ⟨g, h⟩ := s.event_eq c k a x y z n; rw [h]
@[simp] theorem State.event_south (c k a : Nat) (x y z : Option Nat) (n : Nat) :
    (s.event c k a x y z n).south = s.south := by
  obtain ⟨g, h⟩ := s.event_eq c k a x y z n; rw [h]
@[simp] theorem State.event_north (c k a : Nat) (x y z : Option Nat) (n : Nat) :
    (s.event c k a x y z n).north = s.north := by
  obtain ⟨g, h⟩ := s.event_eq c k a x y z n; rw [h]
@[simp] theorem State.event_map (c k a : Nat) (x y z : Option Nat) (n : Nat) :
    (s.event c k a x y z n).map = s.map := by
  obtain ⟨g, h⟩ := s.event_eq c k a x y z n; rw [h]
@[simp] theorem State.event_routes (c k a : Nat) (x y z : Option Nat) (n : Nat) :
    (s.event c k a x y z n).routes = s.routes := by
  obtain ⟨g, h⟩ := s.event_eq c k a x y z n; rw [h]
@[simp] theorem State.event_spans (c k a : Nat) (x y z : Option Nat) (n : Nat) :
    (s.event c k a x y z n).spans = s.spans := by
  obtain ⟨g, h⟩ := s.event_eq c k a x y z n; rw [h]
@[simp] theorem State.event_kiln (c k a : Nat) (x y z : Option Nat) (n : Nat) :
    (s.event c k a x y z n).kiln = s.kiln := by
  obtain ⟨g, h⟩ := s.event_eq c k a x y z n; rw [h]
@[simp] theorem State.event_clk (c k a : Nat) (x y z : Option Nat) (n : Nat) :
    (s.event c k a x y z n).clk = s.clk := by
  obtain ⟨g, h⟩ := s.event_eq c k a x y z n; rw [h]
@[simp] theorem State.event_windows (c k a : Nat) (x y z : Option Nat) (n : Nat) :
    (s.event c k a x y z n).windows = s.windows := by
  obtain ⟨g, h⟩ := s.event_eq c k a x y z n; rw [h]
@[simp] theorem State.event_rings (c k a : Nat) (x y z : Option Nat) (n : Nat) :
    (s.event c k a x y z n).rings = s.rings := by
  obtain ⟨g, h⟩ := s.event_eq c k a x y z n; rw [h]
@[simp] theorem State.event_ports (c k a : Nat) (x y z : Option Nat) (n : Nat) :
    (s.event c k a x y z n).ports = s.ports := by
  obtain ⟨g, h⟩ := s.event_eq c k a x y z n; rw [h]
@[simp] theorem State.event_vdt (c k a : Nat) (x y z : Option Nat) (n : Nat) :
    (s.event c k a x y z n).vdt = s.vdt := by
  obtain ⟨g, h⟩ := s.event_eq c k a x y z n; rw [h]
@[simp] theorem State.event_ckpt (c k a : Nat) (x y z : Option Nat) (n : Nat) :
    (s.event c k a x y z n).ckpt = s.ckpt := by
  obtain ⟨g, h⟩ := s.event_eq c k a x y z n; rw [h]
@[simp] theorem State.event_sgr (c k a : Nat) (x y z : Option Nat) (n : Nat) :
    (s.event c k a x y z n).sgr = s.sgr := by
  obtain ⟨g, h⟩ := s.event_eq c k a x y z n; rw [h]
@[simp] theorem State.event_tiles (c k a : Nat) (x y z : Option Nat) (n : Nat) :
    (s.event c k a x y z n).tiles = s.tiles := by
  obtain ⟨g, h⟩ := s.event_eq c k a x y z n; rw [h]
@[simp] theorem State.event_tile (c k a : Nat) (x y z : Option Nat) (n u : Nat) :
    (s.event c k a x y z n).tile u = s.tile u := by simp [State.tile]
@[simp] theorem State.event_span (c k a : Nat) (x y z : Option Nat) (n u : Nat) :
    (s.event c k a x y z n).span u = s.span u := by simp [State.span]
@[simp] theorem State.tileEvent_span (t c a u : Nat) : (s.tileEvent t c a).span u = s.span u := by simp [State.span]
@[simp] theorem State.event_field (c k a : Nat) (x y z : Option Nat) (n u : Nat) :
    (s.event c k a x y z n).field u = s.field u := by simp [State.field]
@[simp] theorem State.tileEvent_field (t c a u : Nat) : (s.tileEvent t c a).field u = s.field u := by simp [State.field]
@[simp] theorem State.event_port (c k a : Nat) (x y z : Option Nat) (n u : Nat) :
    (s.event c k a x y z n).port u = s.port u := by simp [State.port]
@[simp] theorem State.tileEvent_port (t c a u : Nat) : (s.tileEvent t c a).port u = s.port u := by simp [State.port]
@[simp] theorem State.event_vport (c k a : Nat) (x y z : Option Nat) (n u : Nat) :
    (s.event c k a x y z n).vport u = s.vport u := by simp [State.vport]
@[simp] theorem State.tileEvent_vport (t c a u : Nat) : (s.tileEvent t c a).vport u = s.vport u := by simp [State.vport]

@[simp] theorem Tile.count_seq (x : Tile) (i n : Nat) : (x.count i n).seq = x.seq := rfl
@[simp] theorem State.countEvent_tile_seq (t i c a n u : Nat) :
    ((s.countEvent t i c a n).tile u).seq = (s.tile u).seq := by
  unfold State.countEvent; split
  · rfl
  · by_cases h : u = t <;> simp [h]
@[simp] theorem Tile.count_istore (x : Tile) (i n : Nat) : (x.count i n).istore = x.istore := rfl
@[simp] theorem State.countEvent_tile_istore (t i c a n u : Nat) :
    ((s.countEvent t i c a n).tile u).istore = (s.tile u).istore := by
  unfold State.countEvent; split
  · rfl
  · by_cases h : u = t <;> simp [h]
@[simp] theorem Tile.count_acts (x : Tile) (i n : Nat) : (x.count i n).acts = x.acts := rfl
@[simp] theorem State.countEvent_tile_acts (t i c a n u : Nat) :
    ((s.countEvent t i c a n).tile u).acts = (s.tile u).acts := by
  unfold State.countEvent; split
  · rfl
  · by_cases h : u = t <;> simp [h]
@[simp] theorem Tile.count_df (x : Tile) (i n : Nat) : (x.count i n).df = x.df := rfl
@[simp] theorem State.countEvent_tile_df (t i c a n u : Nat) :
    ((s.countEvent t i c a n).tile u).df = (s.tile u).df := by
  unfold State.countEvent; split
  · rfl
  · by_cases h : u = t <;> simp [h]
@[simp] theorem Tile.count_eng (x : Tile) (i n : Nat) : (x.count i n).eng = x.eng := rfl
@[simp] theorem State.countEvent_tile_eng (t i c a n u : Nat) :
    ((s.countEvent t i c a n).tile u).eng = (s.tile u).eng := by
  unfold State.countEvent; split
  · rfl
  · by_cases h : u = t <;> simp [h]
@[simp] theorem Tile.count_pad (x : Tile) (i n : Nat) : (x.count i n).pad = x.pad := rfl
@[simp] theorem State.countEvent_tile_pad (t i c a n u : Nat) :
    ((s.countEvent t i c a n).tile u).pad = (s.tile u).pad := by
  unfold State.countEvent; split
  · rfl
  · by_cases h : u = t <;> simp [h]
@[simp] theorem Tile.count_ni (x : Tile) (i n : Nat) : (x.count i n).ni = x.ni := rfl
@[simp] theorem State.countEvent_tile_ni (t i c a n u : Nat) :
    ((s.countEvent t i c a n).tile u).ni = (s.tile u).ni := by
  unfold State.countEvent; split
  · rfl
  · by_cases h : u = t <;> simp [h]
@[simp] theorem Tile.count_queues (x : Tile) (i n : Nat) : (x.count i n).queues = x.queues := rfl
@[simp] theorem State.countEvent_tile_queues (t i c a n u : Nat) :
    ((s.countEvent t i c a n).tile u).queues = (s.tile u).queues := by
  unfold State.countEvent; split
  · rfl
  · by_cases h : u = t <;> simp [h]
@[simp] theorem Tile.count_comb (x : Tile) (i n : Nat) : (x.count i n).comb = x.comb := rfl
@[simp] theorem State.countEvent_tile_comb (t i c a n u : Nat) :
    ((s.countEvent t i c a n).tile u).comb = (s.tile u).comb := by
  unfold State.countEvent; split
  · rfl
  · by_cases h : u = t <;> simp [h]
@[simp] theorem Tile.count_rtr (x : Tile) (i n : Nat) : (x.count i n).rtr = x.rtr := rfl
@[simp] theorem State.countEvent_tile_rtr (t i c a n u : Nat) :
    ((s.countEvent t i c a n).tile u).rtr = (s.tile u).rtr := by
  unfold State.countEvent; split
  · rfl
  · by_cases h : u = t <;> simp [h]
@[simp] theorem Tile.count_glost (x : Tile) (i n : Nat) : (x.count i n).glost = x.glost := rfl
@[simp] theorem State.countEvent_tile_glost (t i c a n u : Nat) :
    ((s.countEvent t i c a n).tile u).glost = (s.tile u).glost := by
  unfold State.countEvent; split
  · rfl
  · by_cases h : u = t <;> simp [h]
@[simp] theorem Tile.count_course (x : Tile) (i n : Nat) : (x.count i n).course = x.course := rfl
@[simp] theorem State.countEvent_tile_course (t i c a n u : Nat) :
    ((s.countEvent t i c a n).tile u).course = (s.tile u).course := by
  unfold State.countEvent; split
  · rfl
  · by_cases h : u = t <;> simp [h]
@[simp] theorem Tile.count_staleRaised (x : Tile) (i n : Nat) : (x.count i n).staleRaised = x.staleRaised := rfl
@[simp] theorem State.countEvent_tile_staleRaised (t i c a n u : Nat) :
    ((s.countEvent t i c a n).tile u).staleRaised = (s.tile u).staleRaised := by
  unfold State.countEvent; split
  · rfl
  · by_cases h : u = t <;> simp [h]
@[simp] theorem Tile.count_held (x : Tile) (i n : Nat) : (x.count i n).held = x.held := rfl
@[simp] theorem State.countEvent_tile_held (t i c a n u : Nat) :
    ((s.countEvent t i c a n).tile u).held = (s.tile u).held := by
  unfold State.countEvent; split
  · rfl
  · by_cases h : u = t <;> simp [h]
@[simp] theorem State.countEvent_pending (t i c a n : Nat) : (s.countEvent t i c a n).pending = s.pending := by
  unfold State.countEvent; split <;> simp
@[simp] theorem State.countEvent_now (t i c a n : Nat) : (s.countEvent t i c a n).now = s.now := by
  unfold State.countEvent; split <;> simp
@[simp] theorem State.countEvent_time (t i c a n : Nat) : (s.countEvent t i c a n).time = s.time := by
  unfold State.countEvent; split <;> simp
@[simp] theorem State.countEvent_freeCtr (t i c a n : Nat) : (s.countEvent t i c a n).freeCtr = s.freeCtr := by
  unfold State.countEvent; split <;> simp
@[simp] theorem State.countEvent_fields (t i c a n : Nat) : (s.countEvent t i c a n).fields = s.fields := by
  unfold State.countEvent; split <;> simp
@[simp] theorem State.countEvent_blades (t i c a n : Nat) : (s.countEvent t i c a n).blades = s.blades := by
  unfold State.countEvent; split <;> simp
@[simp] theorem State.countEvent_mgmt (t i c a n : Nat) : (s.countEvent t i c a n).mgmt = s.mgmt := by
  unfold State.countEvent; split <;> simp
@[simp] theorem State.countEvent_south (t i c a n : Nat) : (s.countEvent t i c a n).south = s.south := by
  unfold State.countEvent; split <;> simp
@[simp] theorem State.countEvent_north (t i c a n : Nat) : (s.countEvent t i c a n).north = s.north := by
  unfold State.countEvent; split <;> simp
@[simp] theorem State.countEvent_map (t i c a n : Nat) : (s.countEvent t i c a n).map = s.map := by
  unfold State.countEvent; split <;> simp
@[simp] theorem State.countEvent_routes (t i c a n : Nat) : (s.countEvent t i c a n).routes = s.routes := by
  unfold State.countEvent; split <;> simp
@[simp] theorem State.countEvent_spans (t i c a n : Nat) : (s.countEvent t i c a n).spans = s.spans := by
  unfold State.countEvent; split <;> simp
@[simp] theorem State.countEvent_kiln (t i c a n : Nat) : (s.countEvent t i c a n).kiln = s.kiln := by
  unfold State.countEvent; split <;> simp
@[simp] theorem State.countEvent_clk (t i c a n : Nat) : (s.countEvent t i c a n).clk = s.clk := by
  unfold State.countEvent; split <;> simp
@[simp] theorem State.countEvent_windows (t i c a n : Nat) : (s.countEvent t i c a n).windows = s.windows := by
  unfold State.countEvent; split <;> simp
@[simp] theorem State.countEvent_rings (t i c a n : Nat) : (s.countEvent t i c a n).rings = s.rings := by
  unfold State.countEvent; split <;> simp
@[simp] theorem State.countEvent_ports (t i c a n : Nat) : (s.countEvent t i c a n).ports = s.ports := by
  unfold State.countEvent; split <;> simp
@[simp] theorem State.countEvent_vdt (t i c a n : Nat) : (s.countEvent t i c a n).vdt = s.vdt := by
  unfold State.countEvent; split <;> simp
@[simp] theorem State.countEvent_ckpt (t i c a n : Nat) : (s.countEvent t i c a n).ckpt = s.ckpt := by
  unfold State.countEvent; split <;> simp
@[simp] theorem State.countEvent_sgr (t i c a n : Nat) : (s.countEvent t i c a n).sgr = s.sgr := by
  unfold State.countEvent; split <;> simp
@[simp] theorem State.readEffects_tile_seq (t a n u : Nat) :
    ((s.readEffects t a n).tile u).seq = (s.tile u).seq := by simp [State.readEffects]
@[simp] theorem State.readEffects_tile_istore (t a n u : Nat) :
    ((s.readEffects t a n).tile u).istore = (s.tile u).istore := by simp [State.readEffects]
@[simp] theorem State.readEffects_tile_acts (t a n u : Nat) :
    ((s.readEffects t a n).tile u).acts = (s.tile u).acts := by simp [State.readEffects]
@[simp] theorem State.readEffects_tile_df (t a n u : Nat) :
    ((s.readEffects t a n).tile u).df = (s.tile u).df := by simp [State.readEffects]
@[simp] theorem State.readEffects_tile_eng (t a n u : Nat) :
    ((s.readEffects t a n).tile u).eng = (s.tile u).eng := by simp [State.readEffects]
@[simp] theorem State.readEffects_tile_pad (t a n u : Nat) :
    ((s.readEffects t a n).tile u).pad = (s.tile u).pad := by simp [State.readEffects]
@[simp] theorem State.readEffects_tile_ni (t a n u : Nat) :
    ((s.readEffects t a n).tile u).ni = (s.tile u).ni := by simp [State.readEffects]
@[simp] theorem State.readEffects_tile_queues (t a n u : Nat) :
    ((s.readEffects t a n).tile u).queues = (s.tile u).queues := by simp [State.readEffects]
@[simp] theorem State.readEffects_tile_comb (t a n u : Nat) :
    ((s.readEffects t a n).tile u).comb = (s.tile u).comb := by simp [State.readEffects]
@[simp] theorem State.readEffects_tile_rtr (t a n u : Nat) :
    ((s.readEffects t a n).tile u).rtr = (s.tile u).rtr := by simp [State.readEffects]
@[simp] theorem State.readEffects_tile_glost (t a n u : Nat) :
    ((s.readEffects t a n).tile u).glost = (s.tile u).glost := by simp [State.readEffects]
@[simp] theorem State.readEffects_tile_course (t a n u : Nat) :
    ((s.readEffects t a n).tile u).course = (s.tile u).course := by simp [State.readEffects]
@[simp] theorem State.readEffects_tile_staleRaised (t a n u : Nat) :
    ((s.readEffects t a n).tile u).staleRaised = (s.tile u).staleRaised := by simp [State.readEffects]
@[simp] theorem State.readEffects_tile_held (t a n u : Nat) :
    ((s.readEffects t a n).tile u).held = (s.tile u).held := by simp [State.readEffects]
@[simp] theorem State.readEffects_pending (t a n : Nat) : (s.readEffects t a n).pending = s.pending := by simp [State.readEffects]
@[simp] theorem State.readEffects_now (t a n : Nat) : (s.readEffects t a n).now = s.now := by simp [State.readEffects]
@[simp] theorem State.readEffects_time (t a n : Nat) : (s.readEffects t a n).time = s.time := by simp [State.readEffects]
@[simp] theorem State.readEffects_freeCtr (t a n : Nat) : (s.readEffects t a n).freeCtr = s.freeCtr := by simp [State.readEffects]
@[simp] theorem State.readEffects_fields (t a n : Nat) : (s.readEffects t a n).fields = s.fields := by simp [State.readEffects]
@[simp] theorem State.readEffects_blades (t a n : Nat) : (s.readEffects t a n).blades = s.blades := by simp [State.readEffects]
@[simp] theorem State.readEffects_mgmt (t a n : Nat) : (s.readEffects t a n).mgmt = s.mgmt := by simp [State.readEffects]
@[simp] theorem State.readEffects_south (t a n : Nat) : (s.readEffects t a n).south = s.south := by simp [State.readEffects]
@[simp] theorem State.readEffects_north (t a n : Nat) : (s.readEffects t a n).north = s.north := by simp [State.readEffects]
@[simp] theorem State.readEffects_map (t a n : Nat) : (s.readEffects t a n).map = s.map := by simp [State.readEffects]
@[simp] theorem State.readEffects_routes (t a n : Nat) : (s.readEffects t a n).routes = s.routes := by simp [State.readEffects]
@[simp] theorem State.readEffects_spans (t a n : Nat) : (s.readEffects t a n).spans = s.spans := by simp [State.readEffects]
@[simp] theorem State.readEffects_kiln (t a n : Nat) : (s.readEffects t a n).kiln = s.kiln := by simp [State.readEffects]
@[simp] theorem State.readEffects_clk (t a n : Nat) : (s.readEffects t a n).clk = s.clk := by simp [State.readEffects]
@[simp] theorem State.readEffects_windows (t a n : Nat) : (s.readEffects t a n).windows = s.windows := by simp [State.readEffects]
@[simp] theorem State.readEffects_rings (t a n : Nat) : (s.readEffects t a n).rings = s.rings := by simp [State.readEffects]
@[simp] theorem State.readEffects_ports (t a n : Nat) : (s.readEffects t a n).ports = s.ports := by simp [State.readEffects]
@[simp] theorem State.readEffects_vdt (t a n : Nat) : (s.readEffects t a n).vdt = s.vdt := by simp [State.readEffects]
@[simp] theorem State.readEffects_ckpt (t a n : Nat) : (s.readEffects t a n).ckpt = s.ckpt := by simp [State.readEffects]
@[simp] theorem State.readEffects_sgr (t a n : Nat) : (s.readEffects t a n).sgr = s.sgr := by simp [State.readEffects]

end Sys2Proof.Machine
end

