-- ==== Sys2Proof/Laws/Exec.lean ====
section
/-! SUPPORT. What `exec` does with each command: the meaning its arm calls; and what a step does. -/

namespace Sys2Proof.Machine

theorem exec_alu (t : Nat) (f : AluForm) (s : State) :
    exec (.alu t f) s = execAlu t f s := rfl
theorem exec_addi (t : Nat) (f : AddiForm) (s : State) :
    exec (.addi t f) s = execAddi t f s := rfl
theorem exec_andi (t : Nat) (f : RI) (s : State) :
    exec (.andi t f) s = execAndi t f s := rfl
theorem exec_ori (t : Nat) (f : RI) (s : State) :
    exec (.ori t f) s = execOri t f s := rfl
theorem exec_xori (t : Nat) (f : RI) (s : State) :
    exec (.xori t f) s = execXori t f s := rfl
theorem exec_shi (t : Nat) (f : ShiForm) (s : State) :
    exec (.shi t f) s = execShi t f s := rfl
theorem exec_cmp (t : Nat) (f : Enc RR) (s : State) :
    exec (.cmp t f) s = execCmp t f s := rfl
theorem exec_cmpi (t : Nat) (f : Enc RI) (s : State) :
    exec (.cmpi t f) s = execCmpi t f s := rfl
theorem exec_lui (t : Nat) (f : UF) (s : State) :
    exec (.lui t f) s = execLui t f s := rfl
theorem exec_ld (t : Nat) (f : Enc MF) (s : State) :
    exec (.ld t f) s = execLd t f s := rfl
theorem exec_st (t : Nat) (f : Enc MF) (s : State) :
    exec (.st t f) s = execSt t f s := rfl
theorem exec_bcc (t : Nat) (f : Enc BF) (s : State) :
    exec (.bcc t f) s = execBcc t f s := rfl
theorem exec_jal (t : Nat) (f : Enc UF) (s : State) :
    exec (.jal t f) s = execJal t f s := rfl
theorem exec_jalr (t : Nat) (f : Enc RI) (s : State) :
    exec (.jalr t f) s = execJalr t f s := rfl
theorem exec_mfs (t : Nat) (f : Enc SF) (s : State) :
    exec (.mfs t f) s = execMfs t f s := rfl
theorem exec_mts (t : Nat) (f : SF) (s : State) :
    exec (.mts t f) s = execMts t f s := rfl
theorem exec_selc (t : Nat) (f : RR) (s : State) :
    exec (.selc t f) s = execSelc t f s := rfl
theorem exec_edesc (t : Nat) (f : RR) (s : State) :
    exec (.edesc t f) s = execEdesc t f s := rfl
theorem exec_waite (t : Nat) (f : Enc RR) (s : State) :
    exec (.waite t f) s = execWaite t f s := rfl
theorem exec_waitw (t : Nat) (f : RR) (s : State) :
    exec (.waitw t f) s = execWaitw t f s := rfl
theorem exec_waitwPoll (t : Nat) (s : State) :
    exec (.waitwPoll t) s = execWaitwPoll t s := rfl
theorem exec_emit (t : Nat) (f : Enc RR) (s : State) :
    exec (.emit t f) s = execEmit t f s := rfl
theorem exec_doneHandler (t : Nat) (f : Enc RR) (s : State) :
    exec (.doneHandler t f) s = execDoneHandler t f s := rfl
theorem exec_trapSoft (t : Nat) (f : RR) (s : State) :
    exec (.trapSoft t f) s = execTrapSoft t f s := rfl
theorem exec_rtt (t : Nat) (f : Enc RR) (s : State) :
    exec (.rtt t f) s = execRtt t f s := rfl
theorem exec_halt (t : Nat) (f : RR) (s : State) :
    exec (.halt t f) s = execHalt t f s := rfl
theorem exec_cNop (t : Nat) (h : CHalf) (s : State) :
    exec (.cNop t h) s = execCNop t h s := rfl
theorem exec_rmoPut (t : Nat) (x : XF) (s : State) :
    exec (.rmoPut t x) s = execRmoPut t x s := rfl
theorem exec_rmoGet (t : Nat) (x : XF) (s : State) :
    exec (.rmoGet t x) s = execRmoGet t x s := rfl
theorem exec_rmoAtomic (t : Nat) (x : XF) (s : State) :
    exec (.rmoAtomic t x) s = execRmoAtomic t x s := rfl
theorem exec_rmoSignal (t : Nat) (x : XF) (s : State) :
    exec (.rmoSignal t x) s = execRmoSignal t x s := rfl
theorem exec_rmoSend (t : Nat) (x : XF) (s : State) :
    exec (.rmoSend t x) s = execRmoSend t x s := rfl
theorem exec_fence (t : Nat) (f : Enc XF) (s : State) :
    exec (.fence t f) s = execFence t f s := rfl
theorem exec_flowReset (t : Nat) (x : XF) (s : State) :
    exec (.flowReset t x) s = execFlowReset t x s := rfl
theorem exec_rmoPutReduce (t : Nat) (x : XF) (s : State) :
    exec (.rmoPutReduce t x) s = execRmoPutReduce t x s := rfl
theorem exec_stallRelease (t : Nat) (s : State) :
    exec (.stallRelease t) s = execStallRelease t s := rfl
theorem exec_atomicResult (t : Nat) (s : State) :
    exec (.atomicResult t) s = execAtomicResult t s := rfl
theorem exec_trapEntry (t : Nat) (s : State) :
    exec (.trapEntry t) s = execTrapEntry t s := rfl
theorem exec_seqWatchdog (t : Nat) (s : State) :
    exec (.seqWatchdog t) s = execSeqWatchdog t s := rfl
theorem exec_start (t : Nat) (s : State) :
    exec (.start t) s = execStart t s := rfl
theorem exec_stop (t : Nat) (s : State) :
    exec (.stop t) s = execStop t s := rfl
theorem exec_tileTimerLoRead (t : Nat) (s : State) :
    exec (.tileTimerLoRead t) s = execTileTimerLoRead t s := rfl
theorem exec_registerWrite (r : RegRef) (v : BitVec 32) (s : State) :
    exec (.registerWrite r v) s = execRegisterWrite r v s := rfl
theorem exec_matchToken (t : Nat) (src : TokSrc) (s : State) :
    exec (.matchToken t src) s = execMatchToken t src s := rfl
theorem exec_actionFire (t : Nat) (s : State) :
    exec (.actionFire t) s = execActionFire t s := rfl
theorem exec_entryRetire (t : Nat) (e : Nat) (s : State) :
    exec (.entryRetire t e) s = execEntryRetire t e s := rfl
theorem exec_steerToken (t : Nat) (src : TokSrc) (s : State) :
    exec (.steerToken t src) s = execSteerToken t src s := rfl
theorem exec_steerTimeout (t : Nat) (k : Nat) (s : State) :
    exec (.steerTimeout t k) s = execSteerTimeout t k s := rfl
theorem exec_completionTokenEnter (t : Nat) (s : State) :
    exec (.completionTokenEnter t) s = execCompletionTokenEnter t s := rfl
theorem exec_courseChange (c : CourseReq) (s : State) : exec (.courseChange c) s = execCourseChange c s := rfl
theorem exec_courseCommand (t : Nat) (s : State) :
    exec (.courseCommand t) s = execCourseCommand t s := rfl
theorem exec_drainReport (t : Nat) (s : State) :
    exec (.drainReport t) s = execDrainReport t s := rfl
theorem exec_drainEnd (n : Nat) (s : State) :
    exec (.drainEnd n) s = execDrainEnd n s := rfl
theorem exec_drainWindowExpiry (n : Nat) (s : State) :
    exec (.drainWindowExpiry n) s = execDrainWindowExpiry n s := rfl
theorem exec_matrixFetch (t : Nat) (s : State) :
    exec (.matrixFetch t) s = execMatrixFetch t s := rfl
theorem exec_matrixIssue (t : Nat) (s : State) :
    exec (.matrixIssue t) s = execMatrixIssue t s := rfl
theorem exec_matrixBLatched (t : Nat) (s : State) :
    exec (.matrixBLatched t) s = execMatrixBLatched t s := rfl
theorem exec_matrixComplete (t : Nat) (s : State) :
    exec (.matrixComplete t) s = execMatrixComplete t s := rfl
theorem exec_gateValueCommand (t : Nat) (l : Nat) (s : State) :
    exec (.gateValueCommand t l) s = execGateValueCommand t l s := rfl
theorem exec_gateWindow (t : Nat) (s : State) :
    exec (.gateWindow t) s = execGateWindow t s := rfl
theorem exec_vectorFetch (t : Nat) (s : State) :
    exec (.vectorFetch t) s = execVectorFetch t s := rfl
theorem exec_vectorIssue (t : Nat) (s : State) :
    exec (.vectorIssue t) s = execVectorIssue t s := rfl
theorem exec_vectorComplete (t : Nat) (s : State) :
    exec (.vectorComplete t) s = execVectorComplete t s := rfl
theorem exec_bankPowerDown (t : Nat) (banks : BitVec 8) (s : State) :
    exec (.bankPowerDown t banks) s = execBankPowerDown t banks s := rfl
theorem exec_bankPowerUp (t : Nat) (banks : BitVec 8) (s : State) :
    exec (.bankPowerUp t banks) s = execBankPowerUp t banks s := rfl
theorem exec_bankClearDone (t : Nat) (s : State) :
    exec (.bankClearDone t) s = execBankClearDone t s := rfl
theorem exec_bankPowerRetry (n : Nat) (s : State) :
    exec (.bankPowerRetry n) s = execBankPowerRetry n s := rfl
theorem exec_routerForward (t : Nat) (port vc : Nat) (s : State) :
    exec (.routerForward t port vc) s = execRouterForward t port vc s := rfl
theorem exec_routerArbitration (t : Nat) (port : Nat) (withdrawn : Bool) (s : State) :
    exec (.routerArbitration t port withdrawn) s = execRouterArbitration t port withdrawn s := rfl
theorem exec_combineSlotTimeout (t : Nat) (port : Nat) (s : State) :
    exec (.combineSlotTimeout t port) s = execCombineSlotTimeout t port s := rfl
theorem exec_linkRetry (t : Nat) (d : Dir) (s : State) :
    exec (.linkRetry t d) s = execLinkRetry t d s := rfl
theorem exec_idleCheck (t : Nat) (d : Dir) (ok : Bool) (s : State) :
    exec (.idleCheck t d ok) s = execIdleCheck t d ok s := rfl
theorem exec_routerConfigWrite (t : Nat) (c : RouterCfg) (s : State) :
    exec (.routerConfigWrite t c) s = execRouterConfigWrite t c s := rfl
theorem exec_routeChange (marks : List (Nat × BitVec 4)) (tables : List (Nat × List DetourEntry)) (s : State) :
    exec (.routeChange marks tables) s = execRouteChange marks tables s := rfl
theorem exec_routeTablesAcked (s : State) :
    exec (.routeTablesAcked) s = execRouteTablesAcked s := rfl
theorem exec_putArrive (at_ : Place) (p : Packet) (s : State) :
    exec (.putArrive at_ p) s = execPutArrive at_ p s := rfl
theorem exec_getArrive (at_ : Place) (p : Packet) (s : State) :
    exec (.getArrive at_ p) s = execGetArrive at_ p s := rfl
theorem exec_atomicArrive (at_ : Place) (p : Packet) (s : State) :
    exec (.atomicArrive at_ p) s = execAtomicArrive at_ p s := rfl
theorem exec_signalArrive (at_ : Place) (p : Packet) (s : State) :
    exec (.signalArrive at_ p) s = execSignalArrive at_ p s := rfl
theorem exec_sendArrive (t : Nat) (p : Packet) (s : State) :
    exec (.sendArrive t p) s = execSendArrive t p s := rfl
theorem exec_creditReqArrive (t : Nat) (p : Packet) (s : State) :
    exec (.creditReqArrive t p) s = execCreditReqArrive t p s := rfl
theorem exec_creditRetArrive (t : Nat) (p : Packet) (s : State) :
    exec (.creditRetArrive t p) s = execCreditRetArrive t p s := rfl
theorem exec_creditGrantArrive (t : Nat) (p : Packet) (s : State) :
    exec (.creditGrantArrive t p) s = execCreditGrantArrive t p s := rfl
theorem exec_creditRetry (t : Nat) (opid : Nat) (s : State) :
    exec (.creditRetry t opid) s = execCreditRetry t opid s := rfl
theorem exec_creditIdleReturn (t : Nat) (k : Nat) (s : State) :
    exec (.creditIdleReturn t k) s = execCreditIdleReturn t k s := rfl
theorem exec_putReduceArrive (t : Nat) (p : Packet) (s : State) :
    exec (.putReduceArrive t p) s = execPutReduceArrive t p s := rfl
theorem exec_answerArrive (t : Nat) (p : Packet) (s : State) :
    exec (.answerArrive t p) s = execAnswerArrive t p s := rfl
theorem exec_responseTimeout (t : Nat) (opid : Nat) (s : State) :
    exec (.responseTimeout t opid) s = execResponseTimeout t opid s := rfl
theorem exec_qfullTimeout (t : Nat) (opid : Nat) (s : State) :
    exec (.qfullTimeout t opid) s = execQfullTimeout t opid s := rfl
theorem exec_spanFirstStart (n : Nat) (s : State) :
    exec (.spanFirstStart n) s = execSpanFirstStart n s := rfl
theorem exec_spanResetCommand (t : Nat) (s : State) :
    exec (.spanResetCommand t) s = execSpanResetCommand t s := rfl
theorem exec_spanResetReport (t : Nat) (s : State) :
    exec (.spanResetReport t) s = execSpanResetReport t s := rfl
theorem exec_spanFault (n : Nat) (why : SpanFaultCause) (s : State) :
    exec (.spanFault n why) s = execSpanFault n why s := rfl
theorem exec_spanWatchdogBoundary (n : Nat) (s : State) :
    exec (.spanWatchdogBoundary n) s = execSpanWatchdogBoundary n s := rfl
theorem exec_spanWatchdogExpiry (n : Nat) (s : State) :
    exec (.spanWatchdogExpiry n) s = execSpanWatchdogExpiry n s := rfl
theorem exec_spanRestart (n : Nat) (s : State) :
    exec (.spanRestart n) s = execSpanRestart n s := rfl
theorem exec_hostSpanReset (v : BitVec 32) (s : State) :
    exec (.hostSpanReset v) s = execHostSpanReset v s := rfl
theorem exec_hostSpanRestart (v : BitVec 32) (s : State) :
    exec (.hostSpanRestart v) s = execHostSpanRestart v s := rfl
theorem exec_hostSpanStart (v : BitVec 32) (s : State) :
    exec (.hostSpanStart v) s = execHostSpanStart v s := rfl
theorem exec_inputValid (slot : BitVec 8) (feed : BitVec 4) (s : State) :
    exec (.inputValid slot feed) s = execInputValid slot feed s := rfl
theorem exec_mgmtRailsTimeout (s : State) :
    exec (.mgmtRailsTimeout) s = execMgmtRailsTimeout s := rfl
theorem exec_romEntry (s : State) :
    exec (.romEntry) s = execRomEntry s := rfl
theorem exec_imageVerify (k : Side) (s : State) :
    exec (.imageVerify k) s = execImageVerify k s := rfl
theorem exec_flashReadTimeout (k : Side) (sfdp : Bool) (s : State) :
    exec (.flashReadTimeout k sfdp) s = execFlashReadTimeout k sfdp s := rfl
theorem exec_electionClose (s : State) :
    exec (.electionClose) s = execElectionClose s := rfl
theorem exec_imageAbandon (k : Side) (s : State) :
    exec (.imageAbandon k) s = execImageAbandon k s := rfl
theorem exec_recoveryTimeout (s : State) :
    exec (.recoveryTimeout) s = execRecoveryTimeout s := rfl
theorem exec_rootElection (counts : List (Option Nat)) (s : State) :
    exec (.rootElection counts) s = execRootElection counts s := rfl
theorem exec_rootQualifyTimeout (s : State) :
    exec (.rootQualifyTimeout) s = execRootQualifyTimeout s := rfl
theorem exec_fieldRailOn (f : Nat) (s : State) :
    exec (.fieldRailOn f) s = execFieldRailOn f s := rfl
theorem exec_fieldQualify (f : Nat) (clk : Nat) (s : State) :
    exec (.fieldQualify f clk) s = execFieldQualify f clk s := rfl
theorem exec_fieldQualifyTimeout (f : Nat) (s : State) :
    exec (.fieldQualifyTimeout f) s = execFieldQualifyTimeout f s := rfl
theorem exec_selfTestReport (t : Nat) (logicOk banksOk : Bool) (s : State) :
    exec (.selfTestReport t logicOk banksOk) s = execSelfTestReport t logicOk banksOk s := rfl
theorem exec_selfTestTimeout (f : Nat) (s : State) :
    exec (.selfTestTimeout f) s = execSelfTestTimeout f s := rfl
theorem exec_linkMeasureStart (s : State) :
    exec (.linkMeasureStart) s = execLinkMeasureStart s := rfl
theorem exec_linkWindowEnd (errs : List LinkCount) (overfull : List Nat) (routes : List (Nat × RouterCfg)) (s : State) :
    exec (.linkWindowEnd errs overfull routes) s = execLinkWindowEnd errs overfull routes s := rfl
theorem exec_bisqueEnd (s : State) :
    exec (.bisqueEnd) s = execBisqueEnd s := rfl
theorem exec_mapTimeout (s : State) :
    exec (.mapTimeout) s = execMapTimeout s := rfl
theorem exec_glostOpen (t : Nat) (n d : Nat) (s : State) :
    exec (.glostOpen t n d) s = execGlostOpen t n d s := rfl
theorem exec_glostDigests (t : Nat) (first : Nat) (digests : List (List Byte)) (s : State) :
    exec (.glostDigests t first digests) s = execGlostDigests t first digests s := rfl
theorem exec_glostPart (t : Nat) (seg part : Nat) (bytes : List Byte) (s : State) :
    exec (.glostPart t seg part bytes) s = execGlostPart t seg part bytes s := rfl
theorem exec_glostClose (t : Nat) (s : State) :
    exec (.glostClose t) s = execGlostClose t s := rfl
theorem exec_glostPull (t : Nat) (seg : Nat) (s : State) :
    exec (.glostPull t seg) s = execGlostPull t seg s := rfl
theorem exec_pullRequest (t : Nat) (seg : Nat) (s : State) :
    exec (.pullRequest t seg) s = execPullRequest t seg s := rfl
theorem exec_glostReport (t : Nat) (s : State) :
    exec (.glostReport t) s = execGlostReport t s := rfl
theorem exec_glostTimeout (s : State) :
    exec (.glostTimeout) s = execGlostTimeout s := rfl
theorem exec_pcieLinkUp (h : Nat) (rate width : Nat) (s : State) :
    exec (.pcieLinkUp h rate width) s = execPcieLinkUp h rate width s := rfl
theorem exec_viaductTrainingDone (p : Nat) (s : State) :
    exec (.viaductTrainingDone p) s = execViaductTrainingDone p s := rfl
theorem exec_qualifyWindowEnd (p : Nat) (lanes : BitVec 16) (s : State) :
    exec (.qualifyWindowEnd p lanes) s = execQualifyWindowEnd p lanes s := rfl
theorem exec_trainingTimeout (p : Nat) (s : State) :
    exec (.trainingTimeout p) s = execTrainingTimeout p s := rfl
theorem exec_keystoneWatchdog (s : State) :
    exec (.keystoneWatchdog) s = execKeystoneWatchdog s := rfl
theorem exec_keystoneResetTimeout (s : State) :
    exec (.keystoneResetTimeout) s = execKeystoneResetTimeout s := rfl
theorem exec_rcvGo (k : Side) (h : Nat) (v : BitVec 32) (s : State) :
    exec (.rcvGo k h v) s = execRcvGo k h v s := rfl
theorem exec_rcvAbort (k : Side) (v : BitVec 32) (s : State) :
    exec (.rcvAbort k v) s = execRcvAbort k v s := rfl
theorem exec_rcvCheckDone (k : Side) (img : HostRead) (s : State) :
    exec (.rcvCheckDone k img) s = execRcvCheckDone k img s := rfl
theorem exec_rcvEraseDone (k : Side) (ok : Bool) (s : State) :
    exec (.rcvEraseDone k ok) s = execRcvEraseDone k ok s := rfl
theorem exec_rcvProgramDone (k : Side) (img : HostRead) (ok : Bool) (s : State) :
    exec (.rcvProgramDone k img ok) s = execRcvProgramDone k img ok s := rfl
theorem exec_rcvReadbackDone (k : Side) (ownOk otherOk : Bool) (s : State) :
    exec (.rcvReadbackDone k ownOk otherOk) s = execRcvReadbackDone k ownOk otherOk s := rfl
theorem exec_kilnTick (s : State) :
    exec (.kilnTick) s = execKilnTick s := rfl
theorem exec_telemetryReport (sensor : Nat) (mv ma : Int) (temp : Int) (s : State) :
    exec (.telemetryReport sensor mv ma temp) s = execTelemetryReport sensor mv ma temp s := rfl
theorem exec_telemetryTimeout (sensor : Nat) (s : State) :
    exec (.telemetryTimeout sensor) s = execTelemetryTimeout sensor s := rfl
theorem exec_klnCapWrite (v : BitVec 32) (s : State) :
    exec (.klnCapWrite v) s = execKlnCapWrite v s := rfl
theorem exec_fstepChange (s : State) :
    exec (.fstepChange) s = execFstepChange s := rfl
theorem exec_droop (f : Nat) (s : State) :
    exec (.droop f) s = execDroop f s := rfl
theorem exec_stretchEnd (f : Nat) (low : Bool) (s : State) :
    exec (.stretchEnd f low) s = execStretchEnd f low s := rfl
theorem exec_coolantLoss (b : Bool) (s : State) :
    exec (.coolantLoss b) s = execCoolantLoss b s := rfl
theorem exec_regulatorTrip (g : GroupShown) (s : State) : exec (.regulatorTrip g) s = execRegulatorTrip g s := rfl
theorem exec_feedGroupLoss (b : Bool) (s : State) :
    exec (.feedGroupLoss b) s = execFeedGroupLoss b s := rfl
theorem exec_deepOffEntry (v : BitVec 32) (s : State) :
    exec (.deepOffEntry v) s = execDeepOffEntry v s := rfl
theorem exec_wake (slot : BitVec 8) (feed : BitVec 4) (s : State) :
    exec (.wake slot feed) s = execWake slot feed s := rfl
theorem exec_coldReset (s : State) :
    exec (.coldReset) s = execColdReset s := rfl
theorem exec_inputLoss (s : State) :
    exec (.inputLoss) s = execInputLoss s := rfl
theorem exec_rootLost (s : State) :
    exec (.rootLost) s = execRootLost s := rfl
theorem exec_clockCheck (results : List (Nat × Nat)) (s : State) :
    exec (.clockCheck results) s = execClockCheck results s := rfl
theorem exec_gateCommand (node : GateNode) (en : Bool) (s : State) :
    exec (.gateCommand node en) s = execGateCommand node en s := rfl
theorem exec_gtimeBeacon (s : State) :
    exec (.gtimeBeacon) s = execGtimeBeacon s := rfl
theorem exec_beaconArrive (f : Nat) (sent latency : Nat) (s : State) :
    exec (.beaconArrive f sent latency) s = execBeaconArrive f sent latency s := rfl
theorem exec_hostDoorbell (h r : Nat) (v : BitVec 32) (s : State) :
    exec (.hostDoorbell h r v) s = execHostDoorbell h r v s := rfl
theorem exec_ringPoll (r : Nat) (idx : Option Nat) (s : State) :
    exec (.ringPoll r idx) s = execRingPoll r idx s := rfl
theorem exec_ringEntryFetched (r : Nat) (img : HostRead) (s : State) :
    exec (.ringEntryFetched r img) s = execRingEntryFetched r img s := rfl
theorem exec_ringDeliveryAnswer (r n : Nat) (a : Option Packet) (s : State) :
    exec (.ringDeliveryAnswer r n a) s = execRingDeliveryAnswer r n a s := rfl
theorem exec_ringHeldResume (r : Nat) (s : State) :
    exec (.ringHeldResume r) s = execRingHeldResume r s := rfl
theorem exec_ringStop (h r : Nat) (v : BitVec 32) (s : State) :
    exec (.ringStop h r v) s = execRingStop h r v s := rfl
theorem exec_ringResume (h r : Nat) (v : BitVec 32) (s : State) :
    exec (.ringResume h r v) s = execRingResume h r v s := rfl
theorem exec_ringRestart (h r : Nat) (v : BitVec 32) (s : State) :
    exec (.ringRestart h r v) s = execRingRestart h r v s := rfl
theorem exec_hostWindowOp (h : Nat) (p : Packet) (s : State) :
    exec (.hostWindowOp h p) s = execHostWindowOp h p s := rfl
theorem exec_hostCompletion (h k : Nat) (c : HostCompletion) (s : State) :
    exec (.hostCompletion h k c) s = execHostCompletion h k c s := rfl
theorem exec_completionRingPut (h : Nat) (p : Packet) (s : State) :
    exec (.completionRingPut h p) s = execCompletionRingPut h p s := rfl
theorem exec_completionRingPoll (r : Nat) (idx : Nat) (s : State) :
    exec (.completionRingPoll r idx) s = execCompletionRingPoll r idx s := rfl
theorem exec_completionRingFull (r : Nat) (s : State) :
    exec (.completionRingFull r) s = execCompletionRingFull r s := rfl
theorem exec_msixModeration (r : Nat) (s : State) :
    exec (.msixModeration r) s = execMsixModeration r s := rfl
theorem exec_pcieLinkDown (h : Nat) (why : DownCause) (s : State) :
    exec (.pcieLinkDown h why) s = execPcieLinkDown h why s := rfl
theorem exec_perstAssert (h : Nat) (s : State) :
    exec (.perstAssert h) s = execPerstAssert h s := rfl
theorem exec_perstDeassert (h : Nat) (s : State) :
    exec (.perstDeassert h) s = execPerstDeassert h s := rfl
theorem exec_viaductFrameReceive (p : Nat) (fr : Frame) (s : State) :
    exec (.viaductFrameReceive p fr) s = execViaductFrameReceive p fr s := rfl
theorem exec_frameResendLimit (p : Nat) (s : State) :
    exec (.frameResendLimit p) s = execFrameResendLimit p s := rfl
theorem exec_replayRateLimit (p : Nat) (s : State) :
    exec (.replayRateLimit p) s = execReplayRateLimit p s := rfl
theorem exec_viaductPacketReceive (p : Nat) (k : Packet) (s : State) :
    exec (.viaductPacketReceive p k) s = execViaductPacketReceive p k s := rfl
theorem exec_returnedPacket (p : Nat) (k : Packet) (s : State) :
    exec (.returnedPacket p k) s = execReturnedPacket p k s := rfl
theorem exec_pairChange (s : State) :
    exec (.pairChange) s = execPairChange s := rfl
theorem exec_hello (e j : Nat) (s : State) :
    exec (.hello e j) s = execHello e j s := rfl
theorem exec_helloReceive (p : Nat) (k : Packet) (s : State) :
    exec (.helloReceive p k) s = execHelloReceive p k s := rfl
theorem exec_helloAck (p : Nat) (k : Packet) (s : State) :
    exec (.helloAck p k) s = execHelloAck p k s := rfl
theorem exec_helloTimeout (e j : Nat) (s : State) :
    exec (.helloTimeout e j) s = execHelloTimeout e j s := rfl
theorem exec_timeExchange (s : State) :
    exec (.timeExchange) s = execTimeExchange s := rfl
theorem exec_timeReq (p : Nat) (k : Packet) (s : State) :
    exec (.timeReq p k) s = execTimeReq p k s := rfl
theorem exec_timeResp (p : Nat) (k : Packet) (s : State) :
    exec (.timeResp p k) s = execTimeResp p k s := rfl
theorem exec_linkDeadReport (t : Nat) (d : Dir) (s : State) :
    exec (.linkDeadReport t d) s = execLinkDeadReport t d s := rfl
theorem exec_probeTimeout (t : Nat) (s : State) :
    exec (.probeTimeout t) s = execProbeTimeout t s := rfl
theorem exec_statusPublish (s : State) :
    exec (.statusPublish) s = execStatusPublish s := rfl
theorem exec_windowWrite (off : Nat) (v : BitVec 32) (s : State) :
    exec (.windowWrite off v) s = execWindowWrite off v s := rfl
theorem exec_perfCtrlWrite (v : BitVec 32) (s : State) :
    exec (.perfCtrlWrite v) s = execPerfCtrlWrite v s := rfl
theorem exec_counterCollection (missing : List Nat) (s : State) :
    exec (.counterCollection missing) s = execCounterCollection missing s := rfl
theorem exec_queueDepthSample (missing : List Nat) (s : State) :
    exec (.queueDepthSample missing) s = execQueueDepthSample missing s := rfl
theorem exec_eventReport (e : EventReport) (s : State) :
    exec (.eventReport e) s = execEventReport e s := rfl
theorem exec_readWindow (off len : Nat) (crossed : Bool) (s : State) :
    exec (.readWindow off len crossed) s = execReadWindow off len crossed s := rfl
theorem exec_writeWindow (off : Nat) (v : BitVec 32) (s : State) :
    exec (.writeWindow off v) s = execWriteWindow off v s := rfl
theorem exec_writeControl (num : Nat) (v : BitVec 32) (s : State) :
    exec (.writeControl num v) s = execWriteControl num v s := rfl
theorem exec_pldmSensorRead (sensor : Nat) (s : State) :
    exec (.pldmSensorRead sensor) s = execPldmSensorRead sensor s := rfl
theorem exec_getVersion (tr : Transport) (s : State) :
    exec (.getVersion tr) s = execGetVersion tr s := rfl
theorem exec_getCapabilities (tr : Transport) (s : State) :
    exec (.getCapabilities tr) s = execGetCapabilities tr s := rfl
theorem exec_negotiateAlgorithms (tr : Transport) (s : State) :
    exec (.negotiateAlgorithms tr) s = execNegotiateAlgorithms tr s := rfl
theorem exec_getDigests (tr : Transport) (s : State) :
    exec (.getDigests tr) s = execGetDigests tr s := rfl
theorem exec_getCertificate (tr : Transport) (slot off len : Nat) (s : State) :
    exec (.getCertificate tr slot off len) s = execGetCertificate tr slot off len s := rfl
theorem exec_challenge (tr : Transport) (slot : Nat) (nonce : Nat) (s : State) :
    exec (.challenge tr slot nonce) s = execChallenge tr slot nonce s := rfl
theorem exec_getMeasurements (tr : Transport) (idx : Nat) (sign : Option Nat) (s : State) :
    exec (.getMeasurements tr idx sign) s = execGetMeasurements tr idx sign s := rfl
theorem exec_keyExchange (tr : Transport) (slot : Nat) (req : Nat) (s : State) :
    exec (.keyExchange tr slot req) s = execKeyExchange tr slot req s := rfl
theorem exec_finish (tr : Transport) (sid : Nat) (s : State) :
    exec (.finish tr sid) s = execFinish tr sid s := rfl
theorem exec_heartbeat (tr : Transport) (sid : Nat) (s : State) :
    exec (.heartbeat tr sid) s = execHeartbeat tr sid s := rfl
theorem exec_keyUpdate (tr : Transport) (sid : Nat) (s : State) :
    exec (.keyUpdate tr sid) s = execKeyUpdate tr sid s := rfl
theorem exec_endSession (tr : Transport) (sid : Nat) (s : State) :
    exec (.endSession tr sid) s = execEndSession tr sid s := rfl
theorem exec_sessionTimeout (sid : Nat) (s : State) :
    exec (.sessionTimeout sid) s = execSessionTimeout sid s := rfl
theorem exec_keyProg (h j sid : Nat) (k : KeySlot) (key : Nat) (s : State) :
    exec (.keyProg h j sid k key) s = execKeyProg h j sid k key s := rfl
theorem exec_kSetGo (h j sid : Nat) (k : KeySlot) (s : State) :
    exec (.kSetGo h j sid k) s = execKSetGo h j sid k s := rfl
theorem exec_kSetStop (h j sid : Nat) (k : KeySlot) (s : State) :
    exec (.kSetStop h j sid k) s = execKSetStop h j sid k s := rfl
theorem exec_ideError (h j : Nat) (s : State) :
    exec (.ideError h j) s = execIdeError h j s := rfl
theorem exec_snapshotDue (s : State) :
    exec (.snapshotDue) s = execSnapshotDue s := rfl
theorem exec_captureComplete (n : Nat) (s : State) :
    exec (.captureComplete n) s = execCaptureComplete n s := rfl
theorem exec_shardCommit (s : State) :
    exec (.shardCommit) s = execShardCommit s := rfl
theorem exec_parityPiece (p g : Nat) (k : Packet) (s : State) :
    exec (.parityPiece p g k) s = execParityPiece p g k s := rfl
theorem exec_parityEnd (p g : Nat) (k : Packet) (s : State) :
    exec (.parityEnd p g k) s = execParityEnd p g k s := rfl
theorem exec_rebuildRequest (p g : Nat) (k : Packet) (img : HostRead) (s : State) :
    exec (.rebuildRequest p g k img) s = execRebuildRequest p g k img s := rfl
theorem exec_rebuildRefusal (p g : Nat) (k : Packet) (s : State) :
    exec (.rebuildRefusal p g k) s = execRebuildRefusal p g k s := rfl
theorem exec_rebuildStart (g : Nat) (s : State) :
    exec (.rebuildStart g) s = execRebuildStart g s := rfl
theorem exec_parityDeadline (g : Nat) (s : State) :
    exec (.parityDeadline g) s = execParityDeadline g s := rfl
theorem exec_snapshotDeadline (s : State) :
    exec (.snapshotDeadline) s = execSnapshotDeadline s := rfl
theorem exec_keystoneResetDone (s : State) :
    exec (.keystoneResetDone) s = execKeystoneResetDone s := rfl
theorem exec_resetNRelease (slot : BitVec 8) (feed : BitVec 4) (s : State) :
    exec (.resetNRelease slot feed) s = execResetNRelease slot feed s := rfl
theorem exec_busMasterEnableSet (h : Nat) (s : State) :
    exec (.busMasterEnableSet h) s = execBusMasterEnableSet h s := rfl
theorem exec_completionTimeout (h k : Nat) (s : State) :
    exec (.completionTimeout h k) s = execCompletionTimeout h k s := rfl
theorem exec_rejectionRecordWritten (ok : Bool) (s : State) :
    exec (.rejectionRecordWritten ok) s = execRejectionRecordWritten ok s := rfl
theorem exec_vectorConsumerRelease (t : Nat) (id : Nat) (s : State) :
    exec (.vectorConsumerRelease t id) s = execVectorConsumerRelease t id s := rfl
theorem exec_bankPortArbitration (t : Nat) (reqs : List BankReq) (withdrawn : List Nat) (s : State) :
    exec (.bankPortArbitration t reqs withdrawn) s = execBankPortArbitration t reqs withdrawn s := rfl

theorem step_cons {s : State} {c : Instr} {rest : List Instr} (h : s.pending = c :: rest) :
    step s = exec c { s with pending := rest } := by simp [step, h]

theorem step_nil {s : State} (h : s.pending = []) : step s = .next s.tick := by simp [step, h]

end Sys2Proof.Machine
end

