-- ==== Sys2Proof/Laws/Issue.lean ====
section
/-! SUPPORT. What the issue of a sequencer instruction does, once for all instructions, and the effects that most of them
end in. -/

namespace Sys2Proof.Machine

theorem atSeq_atInstr {s : State} {t : Nat} {i : Instr} {n : Nat} (h : s.atSeq t i n = true) : s.atInstr t i n = true := by
  simp [State.atSeq] at h; exact h.1

theorem atSeq_room {s : State} {t : Nat} {i : Instr} {n : Nat} (h : s.atSeq t i n = true) :
    (s.seq t).pc.toNat + n < 0x2000 := by
  simp [State.atSeq] at h; exact h.2

theorem canIssue_wait {q : Seq} (h : q.canIssue = true) : q.wait = .none := by
  simp [Seq.canIssue] at h; exact h.1.1.2

/-- An instruction that the sequencer can issue, and that is legal, has its effect. -/
theorem issueAs_eq {s : State} {w0 : Wait} {t n : Nat} {i : Instr} {bad leaves : Bool} {eff : Nat → State → State}
    (h : s.atInstr t i n = true) (hb : bad = false) (hl : leaves = true ∨ (s.seq t).pc.toNat + n < 0x2000) :
    issueAs w0 t i s bad leaves eff = .next (eff n s) := by
  subst hb
  simp only [State.atInstr, Bool.and_eq_true, decide_eq_true_eq] at h
  obtain ⟨⟨⟨ht, hf⟩, hw⟩, hp⟩ := h
  rcases hi : i.word with _ | ⟨len, w⟩
  · simp [hi] at hw
  · simp only [hi, Bool.and_eq_true, decide_eq_true_eq] at hw
    obtain ⟨⟨rfl, hc⟩, hx⟩ := hw
    have hq : (if (s.tile t).seq.wait = w0 then { (s.tile t).seq with wait := .none } else (s.tile t).seq)
        = (s.tile t).seq := by
      split
      · next hw => have := canIssue_wait hc; rw [show ({ (s.tile t).seq with wait := .none } : Seq)
          = { (s.tile t).seq with wait := (s.tile t).seq.wait } by rw [this]]
      · rfl
    have h1 : ¬ 0x2000 < (s.tile t).seq.pc.toNat + len := by simpa [State.seq] using Nat.not_lt.mpr hp
    have h2 : ¬ (leaves = false ∧ (s.tile t).seq.pc.toNat + len = 0x2000) := by
      rintro ⟨h, h'⟩
      rcases hl with hl | hl
      · simp [hl] at h
      · simp only [State.seq] at hl; omega
    simp only [issueAs, onTile, ht, if_true, hf, hi, hq, hc, hx, Bool.and_self, Bool.not_true, Bool.false_eq_true,
      if_false, h1]
    split
    · next h3 => exact absurd (by simpa using h3) h2
    · rfl

theorem issue_eq {s : State} {t n : Nat} {i : Instr} {bad leaves : Bool} {eff : Nat → State → State}
    (h : s.atInstr t i n = true) (hb : bad = false) (hl : leaves = true ∨ (s.seq t).pc.toNat + n < 0x2000) :
    issue t i s bad leaves eff = .next (eff n s) := issueAs_eq h hb hl

theorem Seq.reg_setReg (q : Seq) (r rd : BitVec 4) (v : Word) :
    (q.setReg rd v).reg r = if r = rd ∧ rd ≠ 0 then v else q.reg r := by
  unfold Seq.setReg
  by_cases h0 : rd = 0
  · rw [if_pos h0, if_neg (fun h => h.2 h0)]
  · rw [if_neg h0]
    by_cases h : r = rd
    · rw [if_pos ⟨h, h0⟩]; subst h; unfold Seq.reg; rw [if_neg h0]; simp
    · rw [if_neg (fun e => h e.1)]; unfold Seq.reg
      have : r.toNat ≠ rd.toNat := fun e => h (BitVec.eq_of_toNat_eq e)
      simp [this]

theorem Seq.reg_pc (q : Seq) (a : Word) (r : BitVec 4) : ({ q with pc := a } : Seq).reg r = q.reg r := rfl

theorem Seq.setReg_only (q : Seq) (rd : BitVec 4) (v a : Word) :
    ({ q.setReg rd v with pc := a } : Seq) = { q with regs := (q.setReg rd v).regs, pc := a } := by
  unfold Seq.setReg; split <;> rfl

/-- Writing a register and PC, nothing else. -/
theorem onlyRegs_mod (s : State) (t : Nat) (rd : BitVec 4) (v a : Word) :
    OnlyRegs s t (s.modTile t (·.modSeq fun q => { q.setReg rd v with pc := a })) := by
  simp only [OnlyRegs, State.seq, State.tile_modTile, if_true, Tile.modSeq, Seq.setReg_only]
  simp only [State.modTile]

theorem next_regs (s : State) (t : Nat) (rd : BitVec 4) (v a : Word) (r : BitVec 4) :
    ((s.modTile t (·.modSeq fun q => { q.setReg rd v with pc := a })).seq t).reg r
      = if r = rd ∧ rd ≠ 0 then v else (s.seq t).reg r := by
  simp only [State.seq, State.tile_modTile, if_true, Tile.modSeq, ← Seq.reg_setReg]; rfl

/-- `result` writes rd and moves on. -/
theorem writes_result (s : State) (t n : Nat) (rd : BitVec 4) (v : Word) : Writes s t n rd v (.next (s.result t n rd v)) := by
  have e : s.result t n rd v = s.modTile t (·.modSeq fun q =>
      { q.setReg rd v with pc := (s.seq t).pc + BitVec.ofNat 32 n }) := rfl
  rw [e]
  exact ⟨_, rfl, by simp [State.seq, Tile.modSeq], next_regs s t rd v _, onlyRegs_mod s t rd v _⟩

end Sys2Proof.Machine
end

