-- ==== Sys2Proof/Laws/Mesh.lean ====
section
/-! SUPPORT. What routing answers for an output that is not blocked: the direction toward the target, a waypoint left behind,
and the way out at DEST (R204). And the
bounds of R445 where a map leaves no tile usable. -/

namespace Sys2Proof.Machine

theorem toward_east {t u : Nat} (h : tileX t < tileX u) : toward t u = some .east := by simp [toward, h]
theorem toward_west {t u : Nat} (h : tileX u < tileX t) : toward t u = some .west := by
  simp [toward, h, Nat.not_lt.2 (Nat.le_of_lt h)]
theorem toward_north {t u : Nat} (e : tileX t = tileX u) (h : tileY t < tileY u) : toward t u = some .north := by
  simp [toward, e, h]
theorem toward_south {t u : Nat} (e : tileX t = tileX u) (h : tileY u < tileY t) : toward t u = some .south := by
  simp [toward, e, h, Nat.not_lt.2 (Nat.le_of_lt h)]
theorem toward_self (t : Nat) : toward t t = none := by simp [toward]
theorem State.hop_route (s : State) (t i : Nat) (p : Packet) (h : ¬ (p.bcast = true ∧ p.vc = 3)) : s.hop t i p = s.route 20 t p := by
  unfold State.hop; rw [if_neg]; simpa using h
theorem State.route_go {n : Nat} {s : State} {t : Nat} {p : Packet} {d : Dir}
    (h : toward t (if p.wpv then p.waypoint else p.dest) = some d) (hb : s.blockedDir t d = false) :
    s.route (n + 1) t p = .out [d.port] p := by
  unfold State.route; simp only [h, hb]; rfl
theorem State.route_waypoint {n : Nat} {s : State} {t : Nat} {p : Packet} (hw : p.wpv = true) (h : t = p.waypoint) :
    s.route (n + 1) t p = s.route n t { p with wpv := false } := by
  subst h; conv => lhs; unfold State.route
  simp only [hw, if_true, toward_self]
theorem State.route_home {n : Nat} {s : State} {t : Nat} {p : Packet} (hw : p.wpv = false) (h : t = p.dest) (ho : p.out = false) :
    s.route (n + 1) t p = .out [0] p := by
  subst h; unfold State.route; simp only [hw, ho, toward_self, Bool.false_eq_true, if_false]; rfl
theorem State.route_out {n : Nat} {s : State} {t : Nat} {p : Packet} {d : Dir} (hw : p.wpv = false) (h : t = p.dest) (ho : p.out = true)
    (hd : outDir t = some d) (hb : s.blockedDir t d = false) : s.route (n + 1) t p = .out [d.port] p := by
  subst h; unfold State.route; simp only [hw, ho, toward_self, hd, hb, Bool.false_eq_true, if_false]; rfl

/-! ## The bounds of R445 -/

theorem fieldOf_lt {t : Nat} (h : t < Config.nTiles) : fieldOf t < 48 := by
  unfold fieldOf tileX tileY
  change t < 1179648 at h
  change t / 1024 / 192 * 8 + t % 1024 / 128 < 48
  omega

/-- A tile that is not usable has no live attachment link. -/
theorem State.outLive_of_unusable {s : State} {t : Nat} (h : s.usable t = false) (d : Dir) : s.outLive t d = false := by
  unfold State.usable at h; unfold State.outLive outListed
  cases h1 : decide (t < Config.nTiles) <;> cases h2 : listedIn s.map.recs t <;> simp_all

/-- With no usable tile there is nothing for the tables to reach. -/
theorem State.routesHold_of_none {s : State} (h : ∀ t, s.usable t = false) : s.routesHold = true := by
  have h' : ∀ t, s.asListed.usable t = false := h
  have hl : ∀ b, s.asListed.live b = [] := fun b => by simp [State.live, State.outLive_of_unusable (h' _)]
  have hu : s.asListed.usableTiles = [] := by simp [State.usableTiles, h']
  have ha : s.asListed.attachments = [] := by simp [State.attachments, hl]
  have hw : s.asListed.ways = [] := by simp [State.ways, hu, ha]
  unfold State.routesHold; rw [hw]; rfl

/-- Nor for a broadcast. -/
theorem State.castsHold_of_none {s : State} (h : ∀ t, s.usable t = false) : s.castsHold = true := by
  have h' : ∀ t, s.asListed.usable t = false := h
  have hl : s.asListed.live (.keystone s.asListed.mgmt.active) = [] := by simp [State.live, State.outLive_of_unusable (h' _)]
  unfold State.castsHold
  simp only [hl, h', List.map_nil, List.flatten_nil, List.count_nil, Bool.false_eq_true, if_false, decide_true]
  exact List.all_eq_true.2 fun _ _ => rfl

/-- A map that lists every field leaves no tile usable. -/
theorem State.usable_none {s : State} (h : ∀ f, f < 48 → s.map.recs.any (fun r => match r with | .field g _ _ => g = f | _ => false) = true)
    (t : Nat) : s.usable t = false := by
  unfold State.usable
  by_cases ht : t < Config.nTiles
  · have hf := fieldOf_lt ht
    have := h _ hf
    simp only [ht, decide_true, Bool.true_and, Bool.not_eq_false']
    unfold listedIn
    rw [List.any_eq_true] at this ⊢
    obtain ⟨r, hr, h2⟩ := this
    exact ⟨r, hr, by cases r <;> simp_all⟩
  · simp [ht]

/-- Where nothing has been listed since the last route change, no border is marked. -/
theorem State.markBorders_same {s : State} (h : s.routes.recs = s.map.recs) : s.markBorders = s := by
  have : (s.map.recs.filter fun r => !s.routes.recs.contains r) = [] := by simp [h]
  unfold State.markBorders; rw [this]; rfl

theorem filter_range_nil (n : Nat) (p : Nat → Bool) (h : ∀ t, t < n → p t = false) : (List.range n).filter p = [] := by
  rw [List.filter_eq_nil_iff]; intro t ht; rw [h t (List.mem_range.1 ht)]; exact Bool.false_ne_true

end Sys2Proof.Machine
end

