-- ==== Sys2Proof/Tests/Slice0.lean ====
section
/-! SUPPORT. Tests: the check of operands that no encoding can hold, words written out from the encoding tables, single steps on
small states, and for every statement with hypotheses a state and operands that meet them, clause by clause. -/

namespace Sys2Proof.Tests
open Sys2Proof Sys2Proof.Machine

/-! ## Small states -/

/-- Reset, but for tile 0. -/
def one (x : Tile) : State := { State.reset with tiles := [(0, x)] }

/-- Tile 0 with the instruction at address 0 of its store, its sequencer in ENTRY. -/
def loadedTile (i : Instr) : Tile :=
  { istore := (i.word.elim [] fun w => mPutBytes 0 [] 0 (leBytes w.1 w.2.toNat)), seq := { state := .entry } }
def loaded (i : Instr) : State := one (loadedTile i)

/-- And its sequencer changed. -/
def loadedSeq (i : Instr) (f : Seq → Seq) : State := one ((loadedTile i).modSeq f)

/-- The answer is a next state with a property; is a refusal; is a fault. -/
def nextIs (o : Out) (f : State → Bool) : Bool := match o with | .next u => f u | _ => false
def refuses (o : Out) (r : Refusal) : Bool := match o with | .refused q => q = r | _ => false
def faults (o : Out) (r : Fault) : Bool := match o with | .fault q => q = r | _ => false

/-! ## The sequencer: operands that no encoding can hold are refused -/

theorem test_refuses_defined_halfword : refuses (exec (.alu 0 (.undef16 0x841C)) State.reset) .illFormed := by decide
theorem test_refuses_defined_word : refuses (exec (.alu 0 (.undef32 0xFFFD9187)) State.reset) .illFormed := by decide
theorem test_refuses_done_fn : refuses (exec (.doneHandler 0 (.w ⟨0, 0, 0, 1, 0⟩)) State.reset) .illFormed := by decide
theorem test_refuses_done_half : refuses (exec (.doneHandler 0 (.c ⟨1, 0, 0⟩)) State.reset) .illFormed := by decide
theorem test_refuses_trap_fn : refuses (exec (.trapSoft 0 ⟨0, 0, 0, 0, 0⟩) State.reset) .illFormed := by decide
theorem test_refuses_rtt_fn : refuses (exec (.rtt 0 (.w ⟨0, 0, 0, 3, 0⟩)) State.reset) .illFormed := by decide
theorem test_refuses_rtt_half : refuses (exec (.rtt 0 (.c ⟨0, 0, 0⟩)) State.reset) .illFormed := by decide
theorem test_refuses_halt_fn : refuses (exec (.halt 0 ⟨0, 0, 0, 2, 0⟩) State.reset) .illFormed := by decide
theorem test_refuses_nop_half : refuses (exec (.cNop 0 ⟨0, 0, 0⟩) State.reset) .illFormed := by decide
theorem test_refuses_fence_half : refuses (exec (.fence 0 (.c ⟨1, 0, 0⟩)) State.reset) .illFormed := by decide
theorem test_no_such_tile : faults (exec (.cNop 1179648 ⟨1, 0, 0⟩) State.reset) .noSuchTile := by decide

/-! ## The sequencer: words of the spec's examples and tables -/

/-- R41's example, and R45's. -/
theorem test_decode_addi : decodeSeq 0 0x9187 0xFFFD = .addi 0 (.w ⟨3, 2, -5⟩) := by decide
theorem test_encode_addi : (Instr.addi 0 (.w ⟨3, 2, -5⟩)).word = some (4, 0xFFFD9187) := by decide
theorem test_decode_c_addi : decodeSeq 0 0x841C 0 = .addi 0 (.addi ⟨4, 1, 3⟩) := by decide
theorem test_decode_c_done : decodeSeq 0 0x2001 0 = .doneHandler 0 (.c ⟨0, 0, 0⟩) := by decide
theorem test_decode_undefined : decodeSeq 0 0x0002 0 = .alu 0 (.undef16 0x0002) := by decide

/-! ## The sequencer: states that meet what the statements assume -/

def at4 (i : Instr) : Bool := (loaded i).atSeq 0 i 4
def at2 (i : Instr) : Bool := (loaded i).atSeq 0 i 2
/-- In the last place of the store, for an instruction that may stand there. -/
def lastAt (i : Instr) (n : Nat) (f : Seq → Seq) : State :=
  one { istore := (i.word.elim [] fun w => mPutBytes 0 [] (0x2000 - n) (leBytes n w.2.toNat))
        seq := f { state := .entry, pc := BitVec.ofNat 32 (0x2000 - n) } }

theorem test_wit_ArithmeticWrites :
    at4 (.alu 0 (.w ⟨15, 1, 15, 15, 0⟩)) ∧ at2 (.alu 0 (.c 0 ⟨15, 0, 0⟩)) ∧ at2 (.alu 0 (.c 5 ⟨0, 15, 0⟩))
    ∧ at4 (.addi 0 (.w ⟨0, 15, 0x1FFFF⟩)) ∧ at2 (.addi 0 (.li ⟨15, 8, 0⟩)) ∧ at2 (.addi 0 (.addi ⟨0, 7, 3⟩))
    ∧ at4 (.andi 0 ⟨15, 0, 0xFFFF⟩) ∧ at4 (.ori 0 ⟨1, 0, 0x10000⟩) ∧ at4 (.xori 0 ⟨1, 1, 0⟩)
    ∧ at4 (.shi 0 (.w ⟨1, 1, 31, 2, 0⟩)) ∧ at2 (.shi 0 (.shli ⟨15, 7, 3⟩)) ∧ at2 (.shi 0 (.shri ⟨0, 0, 1⟩))
    ∧ at4 (.lui 0 ⟨15, 0x1FFFFF⟩) ∧ at4 (.selc 0 ⟨1, 2, 3, 12, 0⟩) := by decide

theorem test_wit_AluTable : (7 : Word) ≠ 0 := by decide

theorem test_wit_FlagsAndBranches :
    at4 (.cmp 0 (.w ⟨0, 15, 1, 0, 0⟩)) ∧ at2 (.cmp 0 (.c ⟨15, 1, 0⟩)) ∧ at4 (.cmpi 0 (.w ⟨0, 1, 0x10000⟩))
    ∧ at2 (.cmpi 0 (.c ⟨1, 8, 0⟩))
    -- condition 12 is always, condition 0 equal
    ∧ (loaded (.bcc 0 (.w ⟨12, 0xFFF⟩))).atInstr 0 (.bcc 0 (.w ⟨12, 0xFFF⟩)) 4
    ∧ ((loaded (.bcc 0 (.w ⟨12, 0xFFF⟩))).seq 0).holds 12 = true ∧ ((0xFFF : Word) <<< 1).toNat < 0x2000
    ∧ at4 (.bcc 0 (.w ⟨0, 1⟩)) ∧ ((loaded (.bcc 0 (.w ⟨0, 1⟩))).seq 0).holds 0 = false
    ∧ at2 (.bcc 0 (.c ⟨12, 1, 0⟩)) ∧ at2 (.bcc 0 (.c ⟨0, 1, 0⟩))
    ∧ at4 (.jal 0 (.w ⟨15, 0xFFF⟩)) ∧ at2 (.jal 0 (.c ⟨0, 1, 3⟩)) ∧ at4 (.jalr 0 (.w ⟨0, 0, 0x1FFF⟩))
    ∧ ((0x1FFF : Word) &&& 0xFFFFFFFE).toNat < 0x2000 ∧ at2 (.jalr 0 (.c ⟨0, 15, 0⟩)) := by decide

theorem test_wit_jump_from_the_end :
    (lastAt (.jal 0 (.w ⟨0, 0x1FFFFF⟩)) 4 id).atInstr 0 (.jal 0 (.w ⟨0, 0x1FFFFF⟩)) 4
    ∧ ((0x1FFC : Word) + ((0x1FFFFF : BitVec 21).signExtend 32 <<< 1)).toNat < 0x2000 := by decide

theorem test_wit_LoadsRead :
    at4 (.ld 0 (.w ⟨1, 0, 0, 2, 0xFFC⟩)) ∧ lsBad (0xFFC : Word) (wBytes 2) = false
    ∧ ((loaded (.ld 0 (.w ⟨1, 0, 0, 2, 0xFFC⟩))).tile 0).pad.bad 0xFFC 4 = false
    ∧ at2 (.ld 0 (.c ⟨1, 0, 3⟩)) ∧ lsBad (12 : Word) 4 = false := by decide

theorem test_wit_StoresWrite :
    at4 (.st 0 (.w ⟨1, 0, 0, 0, 0xFFF⟩)) ∧ lsBad (0xFFF : Word) (wBytes 0) = false
    ∧ ((loaded (.st 0 (.w ⟨1, 0, 0, 0, 0xFFF⟩))).tile 0).pad.bankOn 0xFFF = true
    ∧ at2 (.st 0 (.c ⟨1, 0, 3⟩)) := by decide

theorem test_wit_SpecialRegisters :
    at4 (.mfs 0 (.w ⟨1, 0, 0, 23⟩)) ∧ ((loaded (.mfs 0 (.w ⟨1, 0, 0, 23⟩))).mfs 0 23).isSome
    ∧ at2 (.mfs 0 (.c ⟨1, 1, 1⟩)) ∧ ((loaded (.mfs 0 (.c ⟨1, 1, 1⟩))).mfs 0 5).isSome
    ∧ at4 (.mts 0 ⟨0, 15, 0, 17⟩) ∧ at4 (.mts 0 ⟨0, 0, 0, 22⟩) := by decide

/-- Action 0 has one operand, in slot 8. -/
def bound8 (x : Tile) : Tile := { x with acts := [(0, 0x80000000), (1, 0x00080000)] }

theorem test_wit_WaitsAndTokens :
    at4 (.edesc 0 ⟨0, 0, 0, 1, 0⟩) ∧ at4 (.waite 0 (.w ⟨0, 0, 0, 3, 0⟩))
    ∧ ((loadedTile (.waite 0 (.w ⟨0, 0, 0, 3, 0⟩))).engIdle 3 = true)
    ∧ (let i : Instr := .waite 0 (.w ⟨0, 0, 0, 1, 0⟩)
       let x : Tile := { loadedTile i with eng := { mat := [{ off := 0, tag := 0, entry := none, phase := .queued }] } }
       (one x).atSeq 0 i 4 ∧ x.engIdle 1 = false)
    ∧ at2 (.waite 0 (.c ⟨3, 0, 0⟩))
    ∧ at4 (.waitw 0 ⟨1, 0, 2, 0, 0⟩)
    ∧ (let i : Instr := .waitw 0 ⟨1, 2, 3, 0, 0⟩
       let s := loadedSeq i fun q => { q with regs := [(2, 0x100), (3, 1)] }
       s.atSeq 0 i 4 ∧ lsBad ((s.seq 0).reg 2) 4 = false ∧ (s.tile 0).pad.bad 0x100 4 = false
         ∧ (s.tile 0).pad.word 0x100 &&& 1 = 0)
    ∧ (let s := loadedSeq (.cNop 0 ⟨1, 0, 0⟩) fun q => { q with wait := .waitw 1 0x100 1 }
       ({ s.seq 0 with wait := .none } : Seq).canIssue = true ∧ (s.tile 0).pad.bad 0x100 4 = false)
    ∧ (let i : Instr := .emit 0 (.w ⟨0, 1, 2, 0, 1⟩)
       (one (bound8 (loadedTile i))).atSeq 0 i 4 ∧ (bound8 (loadedTile i)).bound 8 = true)
    ∧ (let i : Instr := .emit 0 (.c ⟨8, 1, 0⟩)
       (one (bound8 (loadedTile i))).atSeq 0 i 2)
    ∧ at4 (.fence 0 (.w ⟨0, 0, 0, 0, 0⟩)) ∧ at2 (.fence 0 (.c ⟨2, 0, 0⟩)) ∧ at2 (.cNop 0 ⟨1, 0, 0⟩) := by decide

theorem test_wit_HandlersAndTraps :
    (let i : Instr := .doneHandler 0 (.w ⟨0, 0, 0, 0, 0⟩); (lastAt i 4 id).atInstr 0 i 4)
    ∧ (let i : Instr := .doneHandler 0 (.c ⟨0, 0, 0⟩); (lastAt i 2 id).atInstr 0 i 2)
    ∧ (let i : Instr := .trapSoft 0 ⟨0, 0, 0, 1, 0x1FF⟩
       (loadedSeq i fun q => { q with trapVec := 0x100 }).atInstr 0 i 4)
    ∧ (let i : Instr := .rtt 0 (.w ⟨0, 0, 0, 2, 0⟩)
       (loadedSeq i fun q => { q with state := .trap, trapEn := false, interrupted := .handler }).atInstr 0 i 4)
    ∧ (let i : Instr := .rtt 0 (.c ⟨3, 0, 0⟩)
       (loadedSeq i fun q => { q with state := .trap, trapEn := false }).atInstr 0 i 2)
    ∧ (let i : Instr := .halt 0 ⟨0, 0, 0, 3, 0⟩; (loaded i).atInstr 0 i 4)
    ∧ (loaded (.alu 0 (.undef32 0xFFFFFFFF))).atInstr 0 (.alu 0 (.undef32 0xFFFFFFFF)) 4
    ∧ (loaded (.alu 0 (.undef16 0x0002))).atInstr 0 (.alu 0 (.undef16 0x0002)) 2
    ∧ (let q : Seq := { state := .idle, trapVec := 0x10, pend := [⟨9, 1, 2, 3⟩, ⟨11, 0, 0, 0⟩] }
       q.mayTrap = true ∧ (∀ p ∈ q.pend, p = ⟨9, 1, 2, 3⟩ ∨ 9 < p.cause))
    ∧ (let q : Seq := { state := .handler, wdogLimit := 1024, wdog := 1024 }
       q.wdogLimit ≤ q.wdog ∧ ∀ p ∈ q.pend, p.cause ≠ 13)
    ∧ (let q : Seq := { state := .trap, trapEn := false, wdogLimit := 1024, wdog := 1024, pend := [⟨13, 0, 0, 0⟩] }
       q.wdogLimit ≤ q.wdog ∧ ∃ p ∈ q.pend, p.cause = 13) := by decide

/-- Registers s2, s3 with an address, s1 with a length and an offset. -/
def rmoRegs (hi lo v : Word) (q : Seq) : Seq := { q with regs := [(1, v), (2, lo), (3, hi)] }
def rmoReady (k : RmoKind) (x : XF) (i : Instr) (hi lo v : Word) : Bool :=
  let s := loadedSeq i (rmoRegs hi lo v)
  s.atSeq 0 i 4 && (s.seq 0).rmoCause k x = none && (s.tile 0).ni.freeId = some 0
    && !(s.tile 0).landStall s.now (s.rmoOp 0 0 k x)

theorem test_wit_RemoteIssue :
    rmoReady .put ⟨0, 2, 1, 0, 0⟩ (.rmoPut 0 ⟨0, 2, 1, 0, 0⟩) 0 0x1000000 0x01000000
    ∧ rmoReady .get ⟨0, 2, 1, 0, 0⟩ (.rmoGet 0 ⟨0, 2, 1, 0, 0⟩) 0 0x1000000 0x00010100
    ∧ rmoReady .atomic ⟨1, 2, 1, 0, 0⟩ (.rmoAtomic 0 ⟨1, 2, 1, 0, 0⟩) 0 0x1000000 1
    ∧ rmoReady .atomic ⟨0, 2, 1, 8, 0⟩ (.rmoAtomic 0 ⟨0, 2, 1, 8, 0⟩) 0 0x1000000 0x100
    ∧ rmoReady .signal ⟨0, 2, 0, 0, 0⟩ (.rmoSignal 0 ⟨0, 2, 0, 0, 0⟩) 0 0x1000000 0
    ∧ rmoReady .send ⟨0, 2, 1, 0, 0⟩ (.rmoSend 0 ⟨0, 2, 1, 0, 0⟩) 0x4000 0x1000017 0x00040000
    ∧ rmoReady .flowReset ⟨0, 2, 0, 0, 0⟩ (.flowReset 0 ⟨0, 2, 0, 0, 0⟩) 0 0x1000000 0
    ∧ rmoReady .putReduce ⟨0, 2, 4, 1, 0⟩ (.rmoPutReduce 0 ⟨0, 2, 4, 1, 0⟩) 0 0x1000000 0 = false
    ∧ (let i : Instr := .rmoPutReduce 0 ⟨0, 2, 4, 1, 0⟩
       let s := loadedSeq i fun q => { q with regs := [(2, 0x1000000), (4, 0x01000000)] }
       s.atSeq 0 i 4 ∧ (s.seq 0).rmoCause .putReduce ⟨0, 2, 4, 1, 0⟩ = none)
    ∧ (let q : Seq := { state := .handler, wait := .stall (.rmo .put ⟨0, 2, 1, 0, 0⟩), regs := [(1, 0x10000), (2, 0)] }
       ({ q with wait := .none } : Seq).canIssue = true ∧ q.rmoCause .put ⟨0, 2, 1, 0, 0⟩ = none) := by decide

theorem test_wit_TileControlWrites :
    (({} : Tile).seq.state = .stopped ∧ ({} : Tile).startFault = none)
    ∧ ({ acts := [(0, 0x80000000), (1, 0x00980000)] } : Tile).startFault = some 0
    ∧ (let q : Seq := { state := .idle }; q.state ≠ .stopped ∧ q.state ≠ .trapped ∧ q.wait.blocking = false) := by decide

/-! ## Tokens: states that meet what the statements assume -/

def tok8 : Token := { slot := 8, tag := 0, value := 7 }
/-- Action 1 has two operands, in slots 8 and 9; a token for slot 8 is in the local token buffer. -/
def two89 : Tile :=
  { acts := [(2, 0xA0000000), (3, 0x00980000)], seq := { state := .idle }, df := { ltb := [tok8] } }
def half9 : MatchEntry := { action := 1, tag := 0, ops := [none, some { tok8 with slot := 9 }], state := .part }

theorem test_wit_MatchUnit :
    (two89.matchTok .local = some tok8 ∧ two89.matchSource = some .local ∧ tagCourse tok8.tag = two89.course
      ∧ two89.matchCase tok8 = .fresh 0 1 0)
    ∧ (let x := two89.modDf fun d => { d with table := [(5, half9)] }
       x.matchSource = some .local ∧ x.matchCase tok8 = .fill 5 0)
    ∧ (let x := { two89 with acts := [] }
       x.matchTok .local = some tok8 ∧ x.matchSource = some .local ∧ x.matchCase tok8 = .unbound)
    ∧ (let x := { two89 with course := 1, staleRaised := true }
       x.matchSource = some .local ∧ tagCourse tok8.tag ≠ x.course)
    ∧ (let other : MatchEntry := { half9 with action := 2 }
       let x := two89.modDf fun d => { d with table := (List.range 32).map fun j => (j, other) }
       x.matchTok .local = some tok8 ∧ x.matchSource ≠ some .local ∧ x.matchCase tok8 = .full
         ∧ x.df.matchFullRaised = false)
    ∧ two89.df.matchAt ≠ some 0
    ∧ (let x := two89.modDf fun d => { d with matchAt := some 0 }
       x.matchTok .local = some tok8 ∧ x.seq.state ≠ .stopped ∧ x.matchSource = some .local ∧ x.df.matchAt = some 0) := by decide

theorem test_wit_FireAndRetire :
    (let m : MatchEntry := { action := 1, tag := 0, ops := [some tok8], state := .ready 0 }
     let x := two89.modDf fun d => { d with table := [(31, m)] }
     firstReady 0 x.df.table = some (31, m) ∧ x.seq.state = .idle ∧ x.seq.pend = [] ∧ x.entryPoint m < 0x2000)
    ∧ (let m : MatchEntry := { half9 with state := .draining }
       tGet? [(31, m)] 31 = some m ∧ m.desc = 0 ∧ m.rops = 0) := by decide

/-- Steering rule 0: data in slot 8, control in slot 9, every target a delivery under slot 10. -/
def steer89 : Tile :=
  { seq := { state := .idle }, df := { ltb := [tok8], rules := [(0x88900000, 0x8A8A8A8A)] } }

theorem test_wit_SteeringUnit :
    (steer89.steerTok .local = some (0, tok8) ∧ steer89.steerSource = some .local
      ∧ steer89.df.pend.find? (·.partner 0 (steer89.isData 0 tok8) tok8.tag) = none)
    ∧ (let p : SteerPend := ⟨0, !steer89.isData 0 tok8, { tok8 with slot := 9 }, 0, false⟩
       let x := steer89.modDf fun d => { d with pend := [p] }
       x.steerSource = some .local ∧ x.df.pend.find? (·.partner 0 (x.isData 0 tok8) tok8.tag) = some p)
    ∧ (let p : SteerPend := ⟨0, true, tok8, 0x10000, false⟩
       let d : Df := { pend := [p] }
       d.pend[0]? = some p ∧ d.steerWait ≤ p.count)
    ∧ (two89.bound 8 = true ∧ two89.df.ltb.length < 8) := by decide

/-! ## Spans: states that meet what the statements assume -/

/-- Span 0 is tile 0 alone. -/
def spanOne (x : Span) (y : Tile) : State := { one y with spans := [(0, x)] }
def opAt (k : SpanOpKind) (step : Nat) : SpanOp := { kind := k, step := step, at_ := 0 }
def spanRun : Span := { state := .running }
def spanChg (o : SpanOp) : Span := { state := .changing, op := some o }
def inGlost (s : State) : State := s.modMgmt fun m => { m with st := .glost }

theorem test_wit_CourseChanges :
    (let s := spanOne spanRun {}
     (s.span 0).state = .running ∧ (s.span 0).op = none ∧ (s.span 0).queued = [] ∧ s.mayBegin = true)
    ∧ ((spanChg (opAt (.course []) 1)).op ≠ none)
    ∧ (let s := spanOne (spanChg (opAt (.course []) 1)) { seq := { state := .idle } }
       s.spanOf 0 = some 0 ∧ s.usable 0 = true ∧ (s.seq 0).wait.blocking = false ∧ (s.seq 0).state ≠ .trapped)
    ∧ (let s := spanOne (spanChg (opAt .autoRestart 1)) { held := true }
       s.spanOf 0 = some 0 ∧ (opAt .autoRestart 1).kind.isRestart = true ∧ s.usable 0 = true)
    ∧ (let s := spanOne (spanChg (opAt (.course []) 2)) {}
       s.spanOf 0 = some 0 ∧ (s.seq 0).state = .stopped)
    ∧ (let o : SpanOp := { opAt (.course []) 2 with counts := [(0, 0)], stopped := [0] }
       let s := spanOne (spanChg o) {}
       s.drained 0 o = true ∧ s.mgmt.ksReset = none ∧ s.ckpt.waiting.contains 0 = false
         ∧ s.mgmt.st ≠ .glost ∧ ∀ t ∈ s.spanTiles 0, (s.seq t).state = .stopped ∧ (s.tile t).startFault = none)
    ∧ (let o : SpanOp := { opAt (.hostRestart true) 2 with counts := [(0, 0)], stopped := [0] }
       (spanOne (spanChg o) {}).drained 0 o = true)
    ∧ (let o : SpanOp := { opAt (.course []) 2 with counts := [(0, 0)], stopped := [0] }
       let s := (spanOne (spanChg o) {}).modCkpt fun c => { c with n := 1, waiting := [0] }
       s.drained 0 o = true ∧ s.ckpt.waiting.contains 0 = true ∧ s.ckpt.deferred = false)
    ∧ (let o := opAt (.course []) 2
       let s := { spanOne (spanChg o) {} with time := Config.us 100 }
       s.drained 0 o = false ∧ o.at_ + Config.us (s.span 0).layout.drainUs ≤ s.time) := by decide

/-- Without an image no tile has a program, so placement cannot fail. -/
theorem test_wit_SpanLife :
    (let s := inGlost (spanOne { state := .loading } {})
     (s.span 0).op = none ∧ s.mayBegin = true ∧ s.placementFails 0 = false ∧ s.mgmt.glostDone = false)
    ∧ (let o := opAt (.reset 6 0) 1
       let s := spanOne { state := .resetting, op := some o } { seq := { state := .handler } }
       s.spanOf 0 = some 0 ∧ s.usable 0 = true ∧ tGet? o.counts 0 = none)
    ∧ (let o : SpanOp := { opAt (.reset 6 0) 1 with counts := [(0, 0)] }
       let s := { spanOne { state := .resetting, op := some o } {} with now := 64 }
       s.spanOf 0 = some 0 ∧ (s.spanTiles 0).all (o.stopped ++ [0]).contains = true)
    ∧ (let o : SpanOp := { opAt (.reset 6 0) 1 with counts := [(0, 0)] }
       let s := { spanOne { layout := { x1 := 1 }, state := .resetting, op := some o } {} with now := 64 }
       (s.spanTiles 0).all (o.stopped ++ [0]).contains = false)
    ∧ (let s := spanOne spanRun { seq := { state := .trapped } }
       s.spanCause 0 (.trapped 0) = some (1, 0) ∧ s.mayBegin = true)
    ∧ (let s := spanOne { spanChg (opAt (.course []) 1) with faults := [.supply 0] } {}
       s.spanCause 0 (.supply 0) = some (4, 0))
    ∧ (let s := (spanOne spanRun {}).modClk fun c => { c with master := 1000000 }
       (s.span 0).boundary < s.masterMs)
    ∧ (let s := spanOne { spanRun with layout := { wdogMs := 5 }, wdog := 5 } {}
       s.wdogCounts 0 = true ∧ s.mayBegin = true)
    ∧ (({ state := .held, queued := [.hostRestart true] } : Span).restartDue = some (.hostRestart true))
    ∧ (({ state := .held, layout := { autorst := true }, rcause := 1, resets := 254 } : Span).restartDue = some .autoRestart)
    ∧ bitsW (0x59A71000 : Word) 16 16 = 0x59A7 ∧ bitsW (0x59A71000 : Word) 12 2 = 1
    ∧ bitsW (0x59A72FFF : Word) 12 2 = 2 ∧ bitsW (0x59A73000 : Word) 12 2 = 3 ∧ bitsW (0 : Word) 16 16 ≠ 0x59A7
    ∧ (let o : SpanOp := { opAt (.hostRestart true) 2 with hostWait := true }
       let s := spanOne (spanChg o) {}
       ∀ t ∈ s.spanTiles 0, (s.seq t).state = .stopped ∧ (s.tile t).startFault = none)
    ∧ (let o : SpanOp := { opAt (.course []) 1 with acked := [0] }
       let s := spanOne (spanChg o) {}
       s.spanCause 0 (.retired 0) = none ∧ (∀ t ∈ s.spanTiles 0, o.acked.contains t = true)
         ∧ (s.modSpan 0 fun y => { y with op := none }).mayBegin = true)
    ∧ (let s := spanOne { layout := { x1 := 0 }, state := .running } {}
       let m := { s with map := { recs := [.tile 0 3 4] } }
       m.spanTiles 0 = [] ∧ s.spanTiles 0 = [0])
    ∧ (State.reset.deadField 0 = false ∧ State.reset.placementFails 0 = false) := by decide

/-- Where start-up is over, or not yet, the engine may serve. -/
theorem test_wit_may_serve : (spanOne spanRun {}).MayServe ∧ (inGlost (spanOne spanRun {})).MayServe := by
  constructor
  · intro h; exact absurd h (by decide)
  · intro _ h; exact absurd h (by decide)

/-! ## Engines and banks: states that meet what the statements assume -/

def descAt (off : Nat) (p : DescPhase) (ws : List Word) : Desc :=
  { off := off, tag := 0, entry := none, phase := p, words := ws }
/-- A matrix descriptor at 0x100: A at 0x200, B at 0x300, C at 0x400, one element each. -/
def matPad : Pad := { mem := [(0x101, 2), (0x105, 3), (0x109, 4)] }
def matWords : List Word := [0x200, 0x300, 0x400, 0, 0, 0, 0]

theorem test_wit_MatrixDescriptor :
    (matPad.consumerHit (0x100 + 28) (0x100 + 31) = false ∧ matPad.bad 0x100 28 = false
      ∧ (List.range 7).map (fun j => matPad.word (0x100 + 4 * j)) = matWords ∧ (mdesc matWords).check 0x100 = 0
      ∧ ({} : Eng).gate ≠ 0)
    ∧ (mdesc [0x200, 0x300, 0x101, 0, 0, 0, 0x20000000]).check 0x100 = 1
    ∧ (let m := mdesc matWords
       (∀ rs ∈ [m.aRuns, m.asRuns, m.assRuns, m.metaRuns, m.bRuns, m.bsRuns], (matPad.issueView 0).blocked rs = false)
         ∧ m.acc = false ∧ m.consB = false ∧ hull m.cRuns = some (0x400, 0x403) ∧ matPad.sb.length + 1 ≤ 16)
    ∧ (let m := mdesc [0x200, 0x300, 0x400, 0, 0, 0, 0x8400]
       m.consB = true ∧ m.acc = true ∧ matPad.blocked m.cRuns = false)
    ∧ (let m := mdesc [0x200, 0x300, 0x400, 0, 0, 0, 0x180000]
       m.cslotEn = true ∧ m.cslot = 8 ∧ two89.bound 8 = true) := by decide

theorem test_wit_GatesAndBanks :
    ((one { eng := { gateNew := some 64 } }).timer 0 % 64 = 0)
    ∧ (let e : Nat × Nat := (7, 0); e.2 + 1088 ≤ 1088)
    ∧ (let all : List (Nat × BitVec 8 × Nat × Nat) := [(0, 1, 0, 0)]
       ((all.filter fun e => decide (e.2.2.2 + Config.ms 1 ≤ Config.ms 1)).map (·.1)).Nodup)
    ∧ reqsOk [⟨0, 0, false, false⟩, ⟨4, 1, true, false⟩, ⟨6, 1, false, false⟩] = true
    ∧ (let p : Pad := { stream := [(1, [1024])] }
       let rs : List BankReq := [⟨1, 1, false, false⟩, ⟨4, 2, true, true⟩, ⟨4, 2, true, false⟩]
       p.presented rs = [⟨1, 1, false, false⟩, ⟨4, 2, true, true⟩] ∧ p.reqsFit (p.presented rs) = true)
    ∧ (State.reset.gateFor 0 = 64 ∧ ({} : Pad).on ||| 1 = ({} : Pad).on)
    ∧ (let p : Pad := { ups := [3], clearing := [(0, 0), (1, 5)] }
       (∃ m ∈ p.ups, ∃ e ∈ p.clearing, m.getLsbD e.1 = true ∧ decide (e.2 + 1088 ≤ 1088) = false)) := by decide

/-- A vector descriptor at 0x100 with one program word at 0x200, one output at 0x400. -/
def vecWords : List Word := [0, 0x02000000, 0, 0x20, 0, 0, 0x400, 0, 0, 0, 0, 0, 0, 0, 0]
def vecPad : Pad := { mem := [(0x107, 2), (0x10C, 0x20), (0x119, 4), (0x200, 2)] }

theorem test_wit_VectorDescriptor :
    (vecPad.consumerHit (0x100 + 60) (0x100 + 63) = false ∧ vecPad.bad 0x100 60 = false
      ∧ (List.range 15).map (fun j => vecPad.word (0x100 + 4 * j)) = vecWords
      ∧ (vdesc vecWords).check 0x100 [2] [] = 0 ∧ vecPad.word 0x200 = 2 ∧ (vdesc vecWords).compEn = false)
    ∧ (vdesc vecWords).check 0x100 [0] [] = 3
    ∧ (let e := descAt 0x100 .fetched vecWords
       let d := vdesc e.words
       d.ranges d.readSlot = [] ∧ vecPad.blocked [(d.prog, 4 * d.pl)] = false
         ∧ vecPad.blocked (e.compIns d (padView vecPad)) = false
         ∧ vecPad.sb.length + ((d.ranges d.written).length + (e.compOuts d).length + 0) ≤ 16)
    ∧ (let e : Desc := { descAt 0x100 .latched vecWords with cons := [(3, 0)], entries := [5], writes := [(5, 0x400, [1])] }
       e.cons.any (·.1 = 3) = true ∧ e.cons.any (·.1 = 5) = false ∧ e.entries.contains 5 = true
         ∧ e.heldBy vecPad (e.upTo 5) = false
         ∧ e.heldBy vecPad (e.writes ++ [(0, e.off + 60, [0, 0, 0, 0])]) = false) := by decide

/-! ## The mesh: states that meet what the statements assume -/

/-- A GET of 4 bytes at offset 0xFFFC, for tile 0; its sender is tile 1. -/
def getPkt : Packet := { op := .get, dest := 0, len := 4, opid := 7, srcTile := 1, addr := 0xFFFC }
def putPkt : Packet := { op := .put, dest := 0, flits := 2, len := 4, srcTile := 1, addr := 0xFFFC, data := [1, 2, 3, 4] }
/-- Tile 1 is the only other one listed. -/
def two (x y : Tile) : State := { State.reset with tiles := [(0, x), (1, y)] }
def hopOut (s : State) (t i : Nat) (p : Packet) (o : Nat) : Bool := s.hop t i p = .out [o] p

theorem test_wit_RouterForwards :
    (let q : Packet := { getPkt with dest := 1179647 }
     let s := one { ni := { inj := [q] } }
     firstOn 0 (s.tile 0).ni.inj = some q ∧ (s.tile 0).rtr.held 0 0 + q.flits ≤ 12 ∧ hopOut s 0 0 q 3 = true ∧ q.op ≠ .putReduce)
    ∧ (let q : Packet := { getPkt with dest := 1024 }
       let s := one { ni := { inj := [q] }, rtr := { blocked := 0xF } }
       firstOn 0 (s.tile 0).ni.inj = some q ∧ s.hop 0 0 q = .unreachable q)
    ∧ (let q : Packet := { op := .resp, dest := 1024, vc := 1 }
       let s := one { ni := { inj := [q] }, rtr := { blocked := 0xF } }
       firstOn 1 (s.tile 0).ni.inj = some q ∧ s.hop 0 0 q = .unreachable q)
    ∧ (let q : Packet := { op := .helloAck, vc := 1 }
       firstOn 1 ((one { ni := { inj := [q] } }).tile 0).ni.inj = some q ∧ q.op.pierOnly = true)
    ∧ (let q : Packet := { op := .putReduce, vc := 2, reduce := true, flits := 3, dest := 1024, contribs := [(0, 0)] }
       let c : CombSlot := { pkt := { q with contribs := [(1, 0)], srcTile := 1 }, port := 1, at_ := 0 }
       let s := one { ni := { inj := [q] }, rtr := { comb := [(4, c)] } }
       firstOn 2 (s.tile 0).ni.inj = some q ∧ hopOut s 0 0 q 4 = true ∧ tGet? (s.tile 0).rtr.comb 4 = some c
         ∧ mayCombine c.pkt q c.port 0 = true)
    ∧ (let s := two {} { rtr := { wire := [(1, [getPkt])] } }
       portDir 3 = some .east ∧ neighbour 0 .east = some 1 ∧ Dir.east.opposite.port = 1
         ∧ firstOn 0 ((s.tile 1).rtr.wireTo 1) = some getPkt ∧ hopOut s 0 3 getPkt 0 = true)
    ∧ (let s := one { rtr := { bufs := [(12, [⟨getPkt, [0], 0⟩])] } }
       portDir 0 = none ∧ s.requests 0 0 = [3] ∧ (∀ m ∈ s.requests 0 0, tGet 0 (s.tile 0).rtr.wait (0 + m) < (s.tile 0).rtr.arbWait))
    ∧ (let q : Packet := { getPkt with dest := 1 }
       let y : Tile := { rtr := { bufs := [(0, [⟨q, [3], 0⟩]), (16, [⟨q, [3], 0⟩])], wait := [(60, 16)] } }
       let s := (one y).modSpan 0 fun _ => { state := .resetting }
       s.blockedDir 0 .east = false ∧ s.requests 0 3 = [0, 4] ∧ y.rtr.arbWait ≤ tGet 0 y.rtr.wait 60 ∧ s.resetComing 0 = true) := by
  decide

/-- Tile (1, 1) with nothing blocked; its four neighbours as targets, itself as waypoint, and an edge tile's way out. -/
theorem test_wit_RoutingApproaches :
    (let s := State.reset
     (∀ d ∈ allDirs, s.blockedDir 1025 d = false) ∧ ¬ (getPkt.bcast = true ∧ getPkt.vc = 3) ∧ getPkt.wpv = false
       ∧ tileX 1025 < tileX 1026 ∧ tileX 1024 < tileX 1025 ∧ (tileX 1025 = tileX 2049 ∧ tileY 1025 < tileY 2049)
       ∧ (tileX 1025 = tileX 1 ∧ tileY 1 < tileY 1025))
    ∧ (let p : Packet := { getPkt with dest := 1026, waypoint := 1025, wpv := true }
       p.wpv = true ∧ 1025 = p.waypoint ∧ tileX 1025 < tileX p.dest)
    ∧ (let p : Packet := { getPkt with dest := 508, waypoint := 508, wpv := true, out := true }
       508 = p.waypoint ∧ 508 = p.dest ∧ p.out = true ∧ outDir 508 = some .south ∧ State.reset.blockedDir 508 .south = false)
    ∧ (let p : Packet := getPkt; 0 = p.dest ∧ p.out = false)
    ∧ (0 : Nat) < Config.nTiles ∧ 1179647 < Config.nTiles ∧ toward 0 1179647 = some .east ∧ toward 1023 1179647 = some .north
    ∧ toward 1179647 1179647 = none := by decide

theorem test_wit_MeshUpkeep :
    (let c : CombSlot := { pkt := { getPkt with vc := 2, reduce := true }, port := 1, at_ := 0 }
     let s := { one { rtr := { comb := [(3, c)] } } with now := 8 }
     tGet? (s.tile 0).rtr.comb 3 = some c ∧ c.at_ + 8 ≤ s.now ∧ c.port < 5 ∧ c.port ≠ 3)
    ∧ (let y : Tile := { rtr := { wire := [(1, [getPkt])] } }
       let s := two { rtr := { fails := [(0, 1)], retries := [(0, List.replicate 15 0)] } } y
       hasLink 0 .east = true ∧ (s.tile 0).rtr.dead.getLsbD Dir.east.code = false ∧ s.crossing 0 .east ≠ []
         ∧ tGet 0 (s.tile 0).rtr.fails Dir.east.code < 2)
    ∧ (let y : Tile := { rtr := { wire := [(1, [getPkt])] } }
       let s := two { rtr := { fails := [(Dir.east.code, 2)] } } y
       s.crossing 0 .east ≠ [] ∧ 2 ≤ tGet 0 (s.tile 0).rtr.fails Dir.east.code)
    ∧ (let s := { one {} with now := 1024 }
       neighbour 0 .north = some 1024 ∧ (s.tile 0).rtr.dead.getLsbD Dir.north.code = false
         ∧ tGet 0 (s.tile 0).rtr.lastUse Dir.north.code + 1024 ≤ s.now)
    ∧ (let ch : RouteChange := { tables := [], acked := [], epoch := 1 }
       let s := { one {} with routes := { change := some ch } }
       s.routes.change = some ch ∧ 5 % 4 = ch.epoch ∧ s.usable 0 = true ∧ ch.acked.contains 0 = false)
    ∧ (let s := { one {} with routes := { fold := true } }
       s.routes.change = none ∧ s.mgmt.ksReset = none ∧ s.routes.fold = true
         ∧ (∀ m ∈ [((1179647 : Nat), (1 : BitVec 4))], m.1 < Config.nTiles) ∧ ([(0, List.replicate 32 (default : Nat))].map (·.1)).Nodup)
    ∧ (let ch : RouteChange := { tables := [], acked := [0], epoch := 1 }
       let s := { one {} with routes := { change := some ch }, map := { usable := 1 } }
       s.routes.change = some ch ∧ s.map.usable ≤ ch.acked.length ∧ ch.pairs = [])
    ∧ ({ getPkt with rtEpoch := 3, dcnt := 7 } : Packet).sized = true := by decide

/-- A head flit and a table entry written out from Tables 09.1, 09.6 and 10.2. -/
theorem test_packet_words :
    getPkt.head = [2 ^ 25, 0, 0, 0, 0x00070301, 1, 0xFFFC, 0]
    ∧ ({ valid := true, dir := .south, xLo := 1, xHi := 2, yLo := 3, yHi := 4, waypoint := 5 } : DetourEntry).words
        = [0x80300801, 0x2003, 5] := by decide

/-! ## A map that leaves no tile usable: tables and masks within the bounds of R445 -/

def wholeMap : List MapRec := (List.range 48).map fun f => .field f 0 1
def noTiles : State :=
  { State.reset with
    now := 39062500000
    map := { factory := wholeMap, recs := wholeMap, usable := 0 }
    routes := { fold := true, recs := wholeMap }
    mgmt := { st := .bisque, windowAt := some 0 } }
theorem wholeMap_all : ∀ f, f < 48 → wholeMap.any (fun r => match r with | .field g _ _ => g = f | _ => false) = true := by decide
theorem mapNorm_all : mapNorm wholeMap = wholeMap := by decide +kernel
theorem test_wit_routes_hold :
    noTiles.routes.change = none ∧ noTiles.mgmt.ksReset = none ∧ noTiles.routes.fold = true
      ∧ ((noTiles.changeMarked [] []).withTables []).routesHold = true :=
  ⟨rfl, rfl, rfl, by
    rw [show (noTiles.changeMarked [] []).withTables [] = noTiles from State.markBorders_same rfl]
    exact State.routesHold_of_none (State.usable_none wholeMap_all)⟩
theorem noTiles_fields : ((List.range Config.nFields).filterMap fun f => (noTiles.field f).stage.record f) = [] := by decide
theorem noTiles_qualified : ((List.range Config.nFields).filter noTiles.qualified) = [] := by decide
theorem noTiles_listed (t : Nat) (ht : t < Config.nTiles) : listedIn (mapNorm (noTiles.map.factory ++ [] ++ [] ++ [])) t = true := by
  have := State.usable_none (s := noTiles) wholeMap_all t
  have e : noTiles.map.factory ++ [] ++ [] ++ [] = wholeMap := by simp [noTiles]
  rw [e, mapNorm_all]
  unfold State.usable at this
  rw [decide_eq_true ht, Bool.true_and, Bool.not_eq_false'] at this
  exact this
theorem noTiles_bisque : (noTiles.bisqueRecords [] []) = [] := by
  unfold State.bisqueRecords
  rw [noTiles_fields, noTiles_qualified]
  simp only [List.map_nil, List.flatten_nil, List.filter_nil]
  rw [filter_range_nil _ _ fun t ht => by rw [noTiles_listed t ht]; rfl]
  rfl
theorem noTiles_fit : (mapFit 48 1 (mapNorm (wholeMap ++ [])) []) = (wholeMap, []) := by decide +kernel
theorem noTiles_recs : (noTiles.mapWritten [] [] []).map.recs = wholeMap := by
  have e : mapFit Config.nFields 1 (mapNorm (noTiles.map.recs ++ noTiles.bisqueRecords [] ([] ++ overfullIn []))) [] = (wholeMap, []) := by
    have : overfullIn [] = [] := rfl
    rw [this, List.append_nil, noTiles_bisque]; exact noTiles_fit
  unfold State.mapWritten State.addRecords
  simp only [e, List.foldl_nil, List.filter_nil, List.isEmpty_nil, Bool.not_true, Bool.and_false, Bool.false_eq_true, if_false]
  unfold State.reDegr
  split <;> rfl
theorem test_wit_map_holds :
    noTiles.mgmt.windowAt = some 0 ∧ noTiles.mgmt.mapAt = none ∧ noTiles.mgmt.st = .bisque ∧ 0 + 39062500000 ≤ noTiles.now
      ∧ (∀ f, f < 48 → noTiles.qualified f = true → (noTiles.field f).measured noTiles.now = true)
      ∧ (noTiles.mapWritten [] [] []).routesHold = true ∧ (noTiles.mapWritten [] [] []).castsHold = true :=
  have h := State.usable_none (s := noTiles.mapWritten [] [] []) fun f hf => by rw [noTiles_recs]; exact wholeMap_all f hf
  ⟨rfl, rfl, rfl, by decide, by decide, State.routesHold_of_none h, State.castsHold_of_none h⟩

/-! ## Requests and answers -/

/-- Tile 0 with packets at its interface. -/
def met (ps : List Packet) : Tile := { ni := { inbox := ps } }
/-- The one packet of its channel is at tile 0's interface, and may act there. -/
def here (s : State) (p : Packet) : Bool :=
  firstOn p.vc (s.tile 0).ni.inbox = some p && firstOn p.vc (s.tile 0).pad.held = none
    && (p.srcKind ≠ 0 || p.srcEng = s.mgmt.engId)
def lands (s : State) (p : Packet) : Bool :=
  let a := addrOff p.addr
  let n := reqLen p
  here s p && !s.isHeld 0 && !(s.tile 0).pad.holds p && spaceOf p.addr ≠ 1 && !s.padFault 0 p && !(s.tile 0).pad.anyOff a n
    && !(s.tile 0).pad.bad a n

/-- Span 0 is tiles 0 to 0, and the sender is in it: registers may be written. -/
def regWrite : Packet := { op := .put, len := 4, srcTile := 0, addr := 0x200000000004, data := [1, 0, 0, 0] }

theorem test_wit_RequestsArePerformed :
    lands (one (met [putPkt])) putPkt ∧ putPkt.data.length = putPkt.len ∧ lands (one (met [getPkt])) getPkt
    ∧ (let p : Packet := { op := .atomic, sub := 0xC, addr := 0xFFF8, data := List.replicate 16 0 }
       lands (one (met [p])) p)
    ∧ (let p : Packet := { op := .signal, addr := 0xFFFC }; lands (one (met [p])) p)
    ∧ (let p : Packet := { op := .signal, addr := 0xFFFE }
       let s := one (met [p])
       here s p ∧ s.isHeld 0 = false ∧ (s.tile 0).pad.holds p = false ∧ spaceOf p.addr ≠ 1 ∧ s.padFault 0 p = true)
    ∧ (let p : Packet := { op := .put, len := 8, addr := 0xFFFC, data := List.replicate 8 0 }
       let s := one (met [p])
       here s p ∧ s.padFault 0 p = true)
    ∧ (let p : Packet := { op := .get, len := 8, addr := 0xFFFC }
       let s := one (met [p])
       here s p ∧ s.padFault 0 p = true)
    ∧ (let p : Packet := { op := .atomic, addr := 0xFFFE, data := List.replicate 16 0 }
       let s := one (met [p])
       here s p ∧ s.padFault 0 p = true)
    ∧ (let s := spanOne spanRun (met [regWrite])
       here s regWrite ∧ s.isHeld 0 = false ∧ spaceOf regWrite.addr = 1)
    ∧ (let p : Packet := { regWrite with op := .get }
       let s := spanOne spanRun (met [p])
       here s p ∧ s.isHeld 0 = false ∧ spaceOf p.addr = 1)
    ∧ (let x : Tile := { met [putPkt] with pad := { sb := [(0, ⟨true, 0, 0xFFFF, 0xFFFF, 0⟩)] } }
       let s := one x
       here s putPkt ∧ s.isHeld 0 = false ∧ (s.tile 0).pad.holds putPkt = true)
    ∧ (let s := one { met [putPkt] with held := true }
       here s putPkt ∧ s.isHeld 0 = true ∧ isCommand putPkt = false)
    ∧ (let p : Packet := { regWrite with vc := 3, srcKind := 1 }
       let s := one { met [p] with held := true }
       here s p ∧ s.isHeld 0 = true ∧ isCommand p = true ∧ spaceOf p.addr = 1) := by decide

/-- An image of one section: access ranges, with one entry of read and write from 0x200000 to 0x3EFFFF. -/
def rangeImage : Mem :=
  [(6, 1), (7, 0), (64, 9), (68, 128), (69, 0), (70, 0), (71, 0), (72, 8), (73, 0), (74, 0), (75, 0), (128, 0), (129, 0),
    (130, 0x20), (131, 0x80), (134, 0x3E), (135, 0)]

/-- A packet on the outward wire of the first attachment tile of the Keystone south. -/
def atKeystone (p : Packet) : State :=
  { State.reset with tiles := [(508, { rtr := { wire := [(2, [p])] } })], south := { img := rangeImage } }
def ksPkt (o : PktOp) (a : BitVec 48) : Packet :=
  { op := o, out := true, len := 4, addr := 0x600000000000 ||| a, data := List.replicate 4 1 }
def takes (p : Packet) : Bool := ((atKeystone p).takeEdge (.keystone (Place.side false)) p).isSome

theorem test_wit_KeystoneRequests :
    (atKeystone (ksPkt .put 0x200000)).mgmt.active = Place.side false
    ∧ takes (ksPkt .put 0x200000) ∧ (atKeystone (ksPkt .put 0x200000)).ksAdmits (ksPkt .put 0x200000) = true
    ∧ takes (ksPkt .get 0x3EFFFC) ∧ (atKeystone (ksPkt .get 0x3EFFFC)).ksAdmits (ksPkt .get 0x3EFFFC) = true
    ∧ takes (ksPkt .atomic 0x3EFFFC) ∧ (atKeystone (ksPkt .atomic 0x3EFFFC)).ksAdmits (ksPkt .atomic 0x3EFFFC) = true
    ∧ addrKsOff (ksPkt .atomic 0x3EFFFC).addr % 4 = 0
    ∧ takes (ksPkt .signal 0x3F0000) ∧ beatSpan (ksPkt .signal 0x3F0000) = some 0
    ∧ beatSpan (ksPkt .signal 0x3F3FFC) = some 4095
    ∧ takes (ksPkt .put 0x1FFFFC) ∧ (atKeystone (ksPkt .put 0x1FFFFC)).ksAdmits (ksPkt .put 0x1FFFFC) = false := by decide

/-- A SEND of 32 bytes to slot 7 of queue 0 of tile 0, of generation 0 and course 0. -/
def sendPkt : Packet :=
  { op := .send, flits := 2, sub := 7, len := 32, srcTile := 1, addr := 0x400000000000, data := List.replicate 32 9 }
def openQ : Queue := { isOpen := true }
/-- The combining queue of tile 0: RID 5, binary32, 2 contributors, 4 bytes. -/
def redPkt : Packet :=
  { op := .putReduce, vc := 2, reduce := true, flits := 3, rid := 5, doff := 0xFE00, contribs := [(1, 0)], len := 4,
    srcTile := 1, data := [0, 0, 0x80, 0x3F] }

theorem test_wit_MessagesArrive :
    (let s := one { met [sendPkt] with queues := [(sendQueue sendPkt.addr, openQ)] }
     here s sendPkt ∧ s.isHeld 0 = false ∧ (s.tile 0).pad.holds sendPkt = false ∧ sendQueue sendPkt.addr < 8
       ∧ ((s.tile 0).queue (sendQueue sendPkt.addr)).isOpen = true ∧ ((s.tile 0).queue (sendQueue sendPkt.addr)).gen = sendPkt.gen
       ∧ ((s.tile 0).queue (sendQueue sendPkt.addr)).comb = false ∧ tagCourse (s.admitTag 0 sendPkt) = (s.tile 0).course
       ∧ 32 * sendPkt.sub.toNat + sendPkt.data.length ≤ 256
       ∧ (s.tile 0).pad.anyOff (0xF700 + 256 * sendQueue sendPkt.addr + 32 * 7) 32 = false)
    ∧ (let s := one (met [sendPkt])
       here s sendPkt ∧ ((s.tile 0).queue (sendQueue sendPkt.addr)).isOpen = false)
    ∧ (let x : Tile := { met [redPkt] with queues := [(7, { isOpen := true, comb := true })]
                                           comb := { decl0 := 0x00020005, decl1 := 4 } }
       let s := one x
       here s redPkt ∧ (s.tile 0).pad.holds redPkt = false ∧ s.isHeld 0 = false ∧ x.comb.held = false
         ∧ (x.queue 7).comb = true ∧ x.pad.anyOff 0xFE00 redPkt.len = false ∧ redPkt.rid = bitsW x.comb.decl0 0 16
         ∧ redPkt.rfmt = bitW x.comb.decl0 16 ∧ redPkt.len = bitsW x.comb.decl1 0 9
         ∧ x.comb.count + redPkt.contribs.length ≤ bitsW x.comb.decl0 17 15) := by decide

/-- A SEND of 256 bytes from tile 0 to queue 0 of tile 1, where it stands, and its credit entry. -/
def sendOp (st : OpState) : IssueOp :=
  { id := 3, kind := .send, dest := .tile 0 1, vc := 0, addr := 0, len := 256, loc := 0x100, sub := 0, rb := 0, tag := 0,
    entry := none, epoch := 0, st := st, waited := 0x1000 }
def entry01 (m : BitVec 8) : Credit := { eng := 0, tile := 1, queue := 0, gen := 0, slots := m, used := 0 }

theorem test_wit_CreditsMove :
    (let p : Packet := { op := .creditReq, run := 8, srcTile := 1 }
     let s := one { met [p] with queues := [(0, openQ)] }
     here s p ∧ s.isHeld 0 = false ∧ runs (~~~(openQ.giveUp 1 0 0 p.slots).used) 8 ≠ [])
    ∧ (let p : Packet := { op := .creditReq, run := 1, srcTile := 1 }
       let q : Queue := { isOpen := true, grants := [⟨2, 0, 0, 0xFF⟩] }
       let s := one { met [p] with queues := [(0, q)] }
       here s p ∧ runs (~~~(q.giveUp 1 0 0 p.slots).used) 1 = [] ∧ (s.tile 0).waitingReqs < 16)
    ∧ (let p : Packet := { op := .creditRet, slots := 1, srcTile := 1 }
       let s := one { met [p] with queues := [(0, openQ)] }
       here s p ∧ p.toSender = false ∧ ((s.tile 0).queue p.queue).gen = p.gen)
    ∧ (let p : Packet := { op := .creditRet, slots := 1, srcTile := 1, toSender := true }
       let s := one { ni := { inbox := [p], credits := [entry01 0] } }
       here s p ∧ (s.tile 0).ni.credits.any (·.channel p.srcEng p.srcTile p.queue) = true)
    ∧ (let p : Packet := { op := .creditGrant, slots := 0xFF, srcTile := 1, opid := 3 }
       let s := one { ni := { inbox := [p], ops := [sendOp .requested], credits := [entry01 0] } }
       here s p ∧ (s.tile 0).ni.ops.any (·.grantee p) = true)
    ∧ (let p : Packet := { op := .creditGrant, slots := 0xFF, srcTile := 1, opid := 3 }
       let s := one (met [p])
       here s p ∧ (s.tile 0).ni.ops.any (·.grantee p) = false)
    ∧ (let p : Packet := { op := .creditReq, run := 1, rsv := 0x8000, srcTile := 1 }; here (one (met [p])) p ∧ p.rsv ≠ 0)
    ∧ (let s := { one { ni := { ops := [sendOp (.retry 0)], credits := [entry01 0] } } with now := 64 }
       ((s.tile 0).ni.ops.findIdx? fun o => o.id = 3) = some 0 ∧ 0 + 64 ≤ s.now
         ∧ (match s.exit 0 (sendOp (.retry 0)).dest with | .ok r => r == (1, false) | .error _ => false) = true
         ∧ (s.tile 0).ni.credits.find? (·.isFor (sendOp (.retry 0))) = some (entry01 0))
    ∧ (let s := { one { ni := { credits := [entry01 1] } } with now := 4096 }
       (s.tile 0).ni.credits[0]? = some (entry01 1) ∧ (entry01 1).slots ≠ 0 ∧ (entry01 1).used + 4096 ≤ s.now) := by decide

def getOp : IssueOp :=
  { id := 7, kind := .get, dest := .tile 0 1, vc := 0, addr := 0, len := 4, loc := 0xFFFC, sub := 0, rb := 0, tag := 0,
    entry := none, epoch := 0, st := .sent 0 }

theorem test_wit_AnswersComplete :
    (let p : Packet := { op := .resp, vc := 1, opid := 7, srcTile := 1 }
     let s := one (met [p])
     here s p ∧ answered p (s.tile 0).ni.ops = none)
    ∧ (let p : Packet := { op := .parity }; here (one (met [p])) p ∧ p.op.pierOnly = true)
    ∧ (getOp.pull = false ∧ getOp.doomed = false ∧ getOp.kind = .get)
    ∧ (let p : Packet := { op := .getResp, vc := 1, opid := 7, srcTile := 1, data := [1, 2, 3, 4] }
       let s := one { ni := { inbox := [p], ops := [getOp] } }
       here s p ∧ s.isHeld 0 = false ∧ answered p (s.tile 0).ni.ops = some 0 ∧ answerFits getOp p = true
         ∧ p.data ≠ [] ∧ getOp.loc + p.data.length ≤ 65536 ∧ (s.tile 0).pad.anyOff getOp.loc p.data.length = false)
    ∧ (let p : Packet := { op := .resp, vc := 1, opid := 3, code := .retry, srcTile := 1 }
       let s := one { ni := { inbox := [p], ops := [sendOp .requested] } }
       here s p ∧ answered p (s.tile 0).ni.ops = some 0 ∧ answerFits (sendOp .requested) p = true)
    ∧ (let s := { one { ni := { ops := [getOp] } } with now := 67108864 }
       ((s.tile 0).ni.ops.findIdx? fun o => o.id = 7) = some 0 ∧ getOp.st = .sent 0 ∧ 0 + 67108864 ≤ s.now ∧ getOp.doomed = false
         ∧ (s.tile 0).eng.vec = [] ∧ (s.tile 0).ni.stopped.length < 16 ∧ ∀ e ∈ (s.seq 0).pend, e.cause ≠ 9)
    ∧ (let s := one { ni := { ops := [sendOp .requested] } }
       ((s.tile 0).ni.ops.findIdx? fun o => o.id = 3) = some 0 ∧ (sendOp .requested).unsent = true
         ∧ (s.tile 0).ni.sendWait ≤ (sendOp .requested).waited) := by decide
/-! ## Start-up: states that meet what the statements assume -/

def withMgmt (f : Mgmt → Mgmt) : State := State.reset.modMgmt f
def bisque (s : State) : State := s.modMgmt fun m => { m with st := .bisque }
def ready (s : State) : State := s.modMgmt fun m => { m with st := .ready }

theorem test_wit_PowerToElection :
    (State.reset.mgmt.standby = false ∧ State.reset.mgmt.resetN = true)
    ∧ (withMgmt fun m => { m with resetN := false }).mgmt.resetN = false
    ∧ (let s := { withMgmt fun m => { m with rails := .ramping 0 false } with time := Config.ms 500 }
       s.mgmt.rails = .ramping 0 false ∧ s.mgmt.st = .off ∧ 0 + Config.ms 500 ≤ s.time ∧ s.mgmt.coolantA = true ∧ s.mgmt.coolantB = true)
    ∧ (let s := withMgmt fun m => { m with rails := .ramping 0 true, coolantB := false }
       s.mgmt.st = .off ∧ s.mgmt.coolantB = false)
    ∧ (let s := State.reset.modKs .north fun k => { k with verdict := 1 }
       (s.ks .north).verdict = 1 ∧ (s.ks .north).present = true ∧ (s.ks .north).lockVer = none)
    ∧ (let s := State.reset.modKs .south fun k => { k with verdict := 1, lockVer := some 255, tries := 2 }
       (s.ks .south).lockVer ≠ none ∧ flashCause (s.ks .south).flash s.sgr.secverDev s.mgmt.feedId = 3 ∧ 2 ≤ (s.ks .south).tries)
    ∧ (let s := { State.reset.modKs .south fun k => { k with verdict := 1, tries := 1 } with time := Config.sec 8 }
       s.mgmt.romAt + Config.ms 10 ≤ s.time ∧ (s.ks .south).tries < 2 ∧ s.mgmt.romAt + Config.sec 8 ≤ s.time)
    ∧ (let s := ((withMgmt fun m => { m with st := .rom }).modKs .south fun k => { k with verdict := 2 }).modKs .north
         fun k => { k with verdict := 3 }
       s.mgmt.st = .rom ∧ s.mgmt.elected = false ∧ s.south.finished = true ∧ s.north.finished = true ∧ s.south.verdict = 2)
    ∧ (let s := ((withMgmt fun m => { m with st := .rom }).modKs .south fun k => { k with verdict := 3 }).modKs .north
         fun k => { k with verdict := 2 }
       s.south.finished = true ∧ s.north.finished = true ∧ s.south.verdict ≠ 2 ∧ s.north.verdict = 2)
    ∧ (let s := ((withMgmt fun m => { m with st := .rom }).modKs .south fun k => { k with verdict := 3 }).modKs .north
         fun k => { k with verdict := 3 }
       s.south.finished = true ∧ s.north.finished = true ∧ s.north.verdict ≠ 2)
    ∧ (let s := { withMgmt fun m => { m with st := .rom, recovery := true } with time := Config.sec 10 }
       s.mgmt.recovery = true ∧ s.mgmt.romAt + Config.sec 10 ≤ s.time ∧ ∀ h, h < 4 → (s.port h).trained = false)
    ∧ (let s := State.reset.modKs .south fun k => { k with verdict := 2, tries := 2, rcv := { phase := .readback } }
       (s.ks .south).verdict ≠ 1 ∧ (s.ks .south).rcv.phase = .readback ∧ 2 ≤ (s.ks .south).tries
         ∧ s.time ≤ (s.ks .south).triedAt + readLimit .south) := by
  refine ⟨by decide, by decide, by decide, by decide, by decide, by decide, by decide, by decide, by decide, by decide, by decide,
    by decide, by decide, by decide, Nat.zero_le _⟩

/-- An image passes where its parts do; whether chain, digests and signature verify is a free value of Config (log 8). -/
theorem test_wit_image_verified (m : Mem) (v f : Nat) (h1 : headerOk m 67108864 = true) (h2 : tableOk m = true)
    (h3 : chainOk m = true) (h4 : digestsOk m = true) (h5 : signatureOk m = true) (h6 : v ≤ hdrSecver m)
    (h7 : rangesOk m = true) (h8 : feedOk m = true) (h9 : feedDiffers m f = false) (h10 : markedRejected m = false) :
    flashCause m v f = 0 := by
  have h : ¬ hdrSecver m < v := Nat.not_lt.mpr h6
  simp [flashCause, imageCause, h1, h2, h3, h4, h5, h, h7, h8, h9, h10]

/-- Seven PLLs out of tolerance or not locked, two in tolerance at equal distance from the nominal count. -/
def refCounts : List (Option Nat) := [none, some 209756, some 209716, none, some 209714, none, none, some 0]
def rootWait (st : EngState) : State := withMgmt fun m => { m with st := st, elected := true }
def fielded (f : Nat) (x : Field) (s : State) : State := s.modField f fun _ => x
/-- Every field listed, by the Bisque pass; no link of the south Keystone is left. -/
def noField : List MapRec := (List.range 48).map fun f => .field f 1 0
def allListed : Tab Field := (List.range 48).map fun f => (f, { stage := .listed 0 })

theorem test_wit_BisquePass :
    (let s := (rootWait .rom).modKiln fun k => { k with feedA := true }
     s.rootDue = true ∧ s.kiln.feedA = true ∧ electRoot refCounts = some 2)
    ∧ (let s := { rootWait .bisque with time := Config.ms 100 }
       s.rootDue = true ∧ s.mgmt.electedAt + Config.ms 100 ≤ s.time ∧ s.mgmt.peer = false)
    ∧ (let s := (rootWait .glost).modKs .south fun k => { k with rejecting := some 0 }
       (s.ks s.mgmt.active).rejecting = some 0)
    ∧ (let s := ((bisque State.reset).modClk fun c => { c with valid := true, fx := 7 }).modKiln fun k => { k with feedB := true }
       s.mgmt.st = .bisque ∧ s.clk.valid = true ∧ s.mgmt.windowAt = none ∧ (s.ks s.mgmt.active).rejecting = none
         ∧ s.eligible 7 = true ∧ ((List.range 48).filter s.eligible) = [7]
         ∧ ((List.range 48).filter fun g => (s.field g).stage.isRamping).length < 8 ∧ fieldFeedB 7 = true ∧ s.kiln.feedB = true)
    ∧ (let s := { fielded 47 { stage := .ramping 0, good := 3 } State.reset with time := Config.ms 20 }
       (s.field 47).stage = .ramping 0 ∧ s.time ≤ 0 + Config.ms 20 ∧ 0 + Config.ms 20 ≤ s.time ∧ 3 ≤ (s.field 47).good
         ∧ coreOk 2618819 = true ∧ coreOk 2618818 = false ∧ (s.field 47).tripped = false
         ∧ s.disturbed (0x20 + 47) = false)
    ∧ (let s := { fielded 0 { stage := .qualified } State.reset with time := Config.ms 500 }
       (s.field 0).stage = .qualified ∧ (s.field 0).selfTested = false ∧ (s.field 0).qualAt + Config.ms 500 ≤ s.time
         ∧ fieldOf 0 = 0 ∧ listedIn s.map.factory 0 = false ∧ (s.field 0).tests.any (·.1 = 0) = false)
    ∧ (let s := { bisque State.reset with fields := allListed }
       s.mgmt.st = .bisque ∧ s.mgmt.windowAt = none ∧ s.fieldsSettled = true
         ∧ ∀ f, f < 48 → s.qualified f = true → (s.field f).selfTested = true)
    ∧ (let s := { withMgmt fun m => { m with st := .bisque, windowAt := some 0 } with now := 39062500000 }
       s.mgmt.windowAt = some 0 ∧ s.mgmt.mapAt = none ∧ 0 + 39062500000 ≤ s.now
         ∧ ∀ f, f < 48 → s.qualified f = true → (s.field f).measured s.now = true)
    ∧ (let s := { fielded 5 { stage := .qualified, resetAt := 7 } (bisque State.reset) with now := 39062500007 }
       s.qualified 5 = true ∧ (s.field 5).measured s.now = true)
    ∧ (let s := ((bisque State.reset).modMgmt fun m => { m with mapAt := some 0 }).modKiln fun k => { k with feedB := true }
       let u := s.modClk fun c => { c with valid := true }
       s.mgmt.mapAt = some 0 ∧ s.kiln.feedA = false ∧ s.kiln.feedB = true ∧ s.clk.valid = false ∧ u.clk.valid = true)
    ∧ (let s := { withMgmt fun m => { m with st := .bisque, mapAt := some 0 } with time := Config.sec 30, map := { recs := noField } }
       s.mgmt.mapAt = some 0 ∧ 0 + Config.sec 30 ≤ s.time ∧ (s.ks s.mgmt.active).rejecting = none
         ∧ (Block.keystone s.mgmt.active).tiles.filter (fun t => !listedIn s.map.recs t) = []) := by decide

theorem seen_in_spread : ∀ (n : Nat) (l : List MapRec) (seen front : List Nat), ∀ t ∈ seen, t ∈ spread n l seen front
  | 0, _, _, _, _, h => h
  | n + 1, l, seen, front, t, h => by
    unfold spread
    simp only []
    split
    · exact h
    · exact seen_in_spread n l _ _ t (List.mem_append_left _ h)

/-- What `reachable` spreads from: the attachment tiles that are usable and whose outward link is not listed. -/
theorem reachable_starts (l : List MapRec) (k : Side) : ∃ st : List Nat, reachable l k = spread Config.nTiles l st st
    ∧ ∀ t, t ∈ st ↔ t ∈ (Block.keystone k).tiles ∧ listedIn l t = false ∧ ∀ p, MapRec.link t 2 p ∉ l := by
  refine ⟨_, rfl, fun t => ?_⟩
  simp only [List.mem_filter, Bool.and_eq_true, Bool.not_eq_true', List.any_eq_false]
  refine and_congr_right fun _ => and_congr_right fun _ => ⟨fun h p hp => ?_, fun h r hr => ?_⟩
  · simpa using h _ hp
  · rcases r with _ | _ | ⟨u, _ | _ | _ | d, p⟩ <;> simp
    rintro rfl
    exact h p hr

/-- With every field listed nothing is reached; with nothing listed something is, and an engine without an image passes. -/
theorem test_wit_BisqueEnd :
    reachable noField .south = [] ∧ reachable [] .south ≠ []
    ∧ (bisque State.reset).directoryOk = true ∧ (bisque State.reset).badSection = none := by
  refine ⟨?_, ?_, ?_, by decide⟩
  · obtain ⟨st, e, h⟩ := reachable_starts noField .south
    have hl : ∀ t ∈ (Block.keystone .south).tiles, listedIn noField t = true := by decide
    have : st = [] := List.eq_nil_iff_forall_not_mem.2 fun t ht => by
      obtain ⟨a, b, _⟩ := (h t).1 ht
      rw [hl t a] at b; exact absurd b (by decide)
    have z : ∀ n l, spread n l [] [] = [] := by intro n l; cases n <;> simp [spread]
    rw [e, this, z]
  · obtain ⟨st, e, h⟩ := reachable_starts [] .south
    have m : 508 ∈ st := (h 508).2 ⟨by decide, rfl, fun _ => List.not_mem_nil⟩
    have := seen_in_spread Config.nTiles [] st st 508 m
    rw [← e] at this
    exact List.ne_nil_of_mem this
  · have h : directory (bisque State.reset).image = [] := by decide
    simp [State.directoryOk, h, noClash]

/-- An image whose Glost section holds two segments, the directory's entry with its reserved bits set. -/
def badDirImage : Mem :=
  [(6, 1), (7, 0), (64, 2), (68, 0), (69, 16), (70, 0), (71, 0), (72, 0), (73, 32), (74, 0), (75, 0)]

theorem test_wit_bad_directory :
    ({ bisque State.reset with south := { img := badDirImage } }).directoryOk = false := by
  have h : ((directory ({ bisque State.reset with south := { img := badDirImage } } : State).image).all
    fun e => e.reservedOk && e.rectOk && e.landOk) = false := by decide
  unfold State.directoryOk
  simp only [h, Bool.false_and]
/-! ## The Glost pass: states that meet what the statements assume -/

def glost (g : GlostTile) : State := inGlost (one { glost := g })
def glostReady (s : State) : Bool :=
  s.mgmt.st = .glost && !s.mgmt.glostDone && (s.ks s.mgmt.active).rejecting.isNone && s.usable 0
/-- A directory entry: segment 0, DEST 1, at 0x1F00, 256 bytes, tiles 0 to 0; its digest is 0. -/
def dirBytes : List Byte := [0, 0, 1, 0, 0, 0x1F, 0xFF, 0] ++ List.replicate 56 0

theorem test_wit_GlostPass :
    glostReady (glost {})
    ∧ (let g : GlostTile := { opened := true }
       glostReady (glost g) ∧ g.opened = true ∧ (List.replicate 5 ([] : List Byte)).length ≤ 5)
    ∧ (let g : GlostTile := { opened := true, n := 2, d := 1, expect := [(1, dirBytes)], verified := [0] }
       glostReady (glost g) ∧ g.verified.contains 1 = false ∧ g.d ≤ 1 ∧ tGet? g.expect 1 = some dirBytes
         ∧ (dirEntry dirBytes).dest = 1 ∧ (dirEntry dirBytes).len ≤ 256 * (0 + 1))
    ∧ (let e := List.set dirBytes 7 1
       (dirEntry e).dest = 1 ∧ 256 * (0 + 1) < (dirEntry e).len)
    ∧ (let g : GlostTile := { opened := true, n := 2, d := 1, closedAt := some 0 }
       let s := { glost g with now := 65536 }
       glostReady s ∧ 0 + 65536 ≤ s.now ∧ g.listed = false ∧ g.reported = false ∧ g.lacks 0 = true ∧ g.asked.contains 0 = false
         ∧ tGet? g.expect 0 = none)
    ∧ (let g : GlostTile := { opened := true, asked := [0] }; g.asked.contains 0 = true)
    ∧ (let g : GlostTile := { opened := true }; g.reported = false ∧ g.done = true)
    ∧ (let s := { (glost {}).modMgmt fun m => { m with closeAt := some 0 } with time := Config.sec 10 }
       s.mgmt.closeAt = some 0 ∧ 0 + Config.sec 10 ≤ s.time)
    ∧ (let g : GlostTile := { opened := true, n := 2, d := 1, expect := [(1, dirBytes)], verified := [0], closedAt := some 0 }
       let s := { { (glost g).modMgmt fun m => { m with segsSent := [0, 1], segAt := some 1 } with
         south := { img := badDirImage } } with now := 65536 }
       glostReady s ∧ glostN s.image = 2 ∧ 256 * 15 < segLen s.image 1 ∧ s.mayBroadcast 1 = true
         ∧ (∀ k, k < glostN s.image → s.mgmt.segsSent.contains k = true)
         ∧ g.lacks 1 = true ∧ g.pull = none ∧ (s.tile 0).ni.ops = [] ∧ g.resetOf = none
         ∧ (s.pullFrom 0 (dirEntry dirBytes))[tGet 0 g.tried 1 % ((s.pullFrom 0 (dirEntry dirBytes)).length + 1)]? = none)
    ∧ (let g : GlostTile := { opened := true, n := 2, d := 1, expect := [(1, List.set dirBytes 12 1)] }
       (glost g).pullFrom 0 (dirEntry (List.set dirBytes 12 1)) = [1]) := by decide

/-- Whether a segment's digest agrees is a free value of Config (log 8). -/
theorem test_wit_segment (raw bs : List Byte) (h : Config.sha384 (raw.take 16 ++ bs) = leNat ((raw.drop 16).take 48)) :
    segOk raw bs = true := decide_eq_true h

/-- While tile 1 has not reported the pass goes on. -/
theorem test_wit_pass_goes_on :
    ((glost { opened := true }).modTile 0 fun x => { x with glost := { x.glost with reported := true } }).allReported = false := by
  rw [State.allReported, List.all_eq_false]
  exact ⟨1, List.mem_range.2 (by decide), by decide⟩

/-- Tiles `a` to `a + n - 1`, all reported but tile 0. -/
def nearlyAll (a n : Nat) : Tab Tile :=
  (List.range' a n).map fun t => (t, { glost := { opened := true, reported := decide (t ≠ 0) } })

theorem tGet_nearlyAll (n a t : Nat) (h : a ≤ t) (h' : t < a + n) :
    tGet Tile.reset (nearlyAll a n) t = { glost := { opened := true, reported := decide (t ≠ 0) } } := by
  induction n generalizing a with
  | zero => omega
  | succ n ih =>
    simp only [nearlyAll, List.range'_succ, List.map_cons, tGet]
    split
    · next e => subst e; rfl
    · next e => exact ih (a + 1) (by omega) (by omega)

/-- With tile 0's report the pass ends; an engine without an image has a good layout. -/
theorem test_wit_pass_ends :
    let s := inGlost { State.reset with tiles := nearlyAll 0 Config.nTiles }
    let s1 := s.modTile 0 fun x => { x with glost := { x.glost with reported := true } }
    (s.tile 0).glost.reported = false ∧ (s.tile 0).glost.done = true ∧ s.layoutOk = true ∧ s1.allReported = true
      ∧ ∀ e ∈ s1.tiles, e.2.glost.listed = false := by
  intro s s1
  have g : ∀ t, t < Config.nTiles → s.tile t = { glost := { opened := true, reported := decide (t ≠ 0) } } := fun t h =>
    tGet_nearlyAll Config.nTiles 0 t (Nat.zero_le _) (by omega)
  have z : (0 : Nat) < Config.nTiles := by decide
  refine ⟨by rw [g 0 z]; rfl, by rw [g 0 z]; rfl, ?_, ?_, ?_⟩
  · show State.layoutOk (inGlost { State.reset with tiles := nearlyAll 0 Config.nTiles }) = true
    generalize nearlyAll 0 Config.nTiles = l
    rfl
  · rw [State.allReported, List.all_eq_true]
    intro t ht
    have : (s1.tile t).glost.reported = true := by
      by_cases e : t = 0
      · subst e; simp [s1]
      · simp [s1, e, g t (List.mem_range.1 ht)]
    rw [this, Bool.or_true]
  · intro e he
    rcases mem_tPut_val he with h | h
    · rw [h, g 0 z]
    · simp only [s, inGlost, State.modMgmt, nearlyAll, List.mem_map] at h
      obtain ⟨t, _, rfl⟩ := h; rfl

/-! ## The Kiln, resets and clocks: states that meet what the statements assume -/

/-- A policy: cap 9,000 W, LMIN 4, a stretch of 1. -/
def policyImage : Mem :=
  [(6, 1), (7, 0), (64, 4), (68, 128), (69, 0), (70, 0), (71, 0), (72, 64), (73, 0), (74, 0), (75, 0), (128, 0x28), (129, 0x23),
    (133, 4), (136, 1), (137, 0)]

def kilned (s : State) : State := s.modKs .south fun k => { k with img := policyImage }

theorem test_wit_KilnActs :
    (fieldPlausible true 50 800000 124 = true ∧ fieldPlausible false 500 (-10000) 125 = true
      ∧ (ready State.reset).coolantActs = true ∧ fieldPlausible true 51 0 0 = false ∧ bladePlausible 39999 0 = false)
    ∧ (let s := { ready State.reset with time := Config.us 60 }
       s.mgmt.st ≠ .off ∧ s.mgmt.st ≠ .deepOff ∧ (s.field 47).reportAt + Config.us 60 ≤ s.time)
    ∧ (let s := (kilned (spanOne spanRun {})).modClk fun c => { c with master := 100000 }
       let s := inGlost s
       s.mgmt.st = .glost ∧ s.kiln.tick < s.tickNo ∧ polLmin s.image ≤ 64 ∧ ∀ e ∈ s.spans, e.2.state ≠ .unused)
    ∧ (let s := { (ready State.reset).modKiln fun k => { k with pend := true, fpend := 7 } with time := Config.ns 81920 }
       s.kiln.pend = true ∧ s.inService = true ∧ s.kiln.lockAt + Config.ns 81920 ≤ s.time ∧ s.droopFree = true)
    ∧ (let s := ready (kilned (fielded 47 { stage := .qualified, railOff := false } State.reset))
       s.fieldClocked 47 = true ∧ (s.field 47).stretch = 0 ∧ polStretch s.image ≠ 0 ∧ (s.field 47).railOff = false
         ∧ s.stoppable = true)
    ∧ (let x : Field := { stretch := 1 }; 0 < x.stretch ∧ x.stretch ≤ 2)
    ∧ (State.reset.coolantActs = false)
    ∧ (let s := ready ((fielded 4 { stage := .qualified, railOff := false } State.reset).modKiln fun k => { k with feedB := true })
       s.kiln.feedB = true ∧ s.stoppable = true ∧ fieldFeedB 4 = true ∧ s.factoryField 4 = false
         ∧ (s.map.recs.any fun r => r.field? = some 4) = false ∧ (s.field 4).stage = .qualified
         ∧ (Block.pcie 1).feedB = true)
    ∧ (let s := { (ready State.reset) with blades := (List.range 8).map (fun k => (k + 8, { outSince := some 0 })), time := Config.us 200 }
       ∀ k, k < 16 → (true = true ↔ 8 ≤ k) → ∃ a, (s.blade k).outSince = some a ∧ a + Config.us 200 ≤ s.time)
    ∧ (let s := ready ((fielded 4 { stage := .qualified, railOff := false } State.reset).modKiln fun k => { k with reg := some regConfig })
       s.kiln.reg = some regConfig ∧ (s.field 4).railOff = false ∧ s.stoppable = true ∧ (s.field 4).stage.isRamping = false
         ∧ ((regConfig.overMa : Int) < 800000 ∧ regConfig.overMaNs ≤ 100000)) := by
  refine ⟨by decide, by decide, by decide, by decide, by decide, by decide, by decide, by decide, ?_, by decide⟩
  intro s k h h8
  have : ∀ k, k < 16 → 8 ≤ k → (s.blade k).outSince = some 0 := by decide
  exact ⟨0, this k h (h8.1 rfl), by decide⟩

theorem test_wit_ResetsLeaveWhatLasts :
    State.reset.mgmt.st ≠ .deepOff
    ∧ (bitsW (0xDEE00001 : Word) 16 16 = 0xDEE0 ∧ (0xDEE00001 : Word).getLsbD 0 = true ∧ (ready State.reset).inService = true)
    ∧ (withMgmt fun m => { m with st := .deepOff }).mgmt.st = .deepOff
    ∧ (let s := withMgmt fun m => { m with resetN := false, standby := true }; s.mgmt.resetN = false ∧ s.mgmt.standby = true) := by
  decide

theorem test_wit_ClocksAndTime :
    (ready State.reset).inService = true ∧ State.reset.inService = false
    ∧ (let s := (ready State.reset).modClk fun c => { c with master := 1000000000 }
       s.clk.roundAt + 1000000000 ≤ s.clk.master ∧ s.measured 0 = true ∧ s.clockOk 0 5243928 = true ∧ s.clockOk 0 5243929 = false
         ∧ s.measured 0x10 = true ∧ s.clockOk 0x10 0 = false ∧ s.rootCode = 0x10)
    ∧ (nodeExists (.pierMesh 35) = true ∧ nodeCommanded (.pierMesh 35) = true ∧ nodeExists (.compute 1179647) = true
      ∧ nodeCommanded (.field 47) = true ∧ State.reset.childOn (.pierMesh 0) = false
      ∧ (one { seq := { state := .handler } }).childOn (.compute 0) = true)
    ∧ (let s := (ready State.reset).modClk fun c => { c with master := 100000, running := true, beacon := some 0 }
       s.clk.running = true ∧ s.clk.beacon = some 0 ∧ 0 + 100000 ≤ s.clk.master)
    ∧ (let s := ((fielded 47 { stage := .qualified } State.reset).modClk fun c => { c with beacon := some 0 }).modVport 31 id
       s.clk.beacon = some 0 ∧ s.qualified 47 = true ∧ (tGet? s.vdt.ports 31).isSome = true)
    ∧ ((0 : Nat) + 65536000 < 65536001 ∧ (0 : Nat) < 65536000) := by decide
/-! ## The host's side: states that meet what the statements assume -/

def hostPort (h : Nat) (p : PciePort) : State := State.reset.modPort h fun _ => p
/-- A host window of 64 KiB at host address 0xFF0, through port 0. -/
def win0 : Window :=
  { base := 0xFF0, len := 65536, port := 0, rd := true, wr := true, atom := true, noSnoop := false, ring := false, ide := none }
def winPkt (o : PktOp) (off : BitVec 48) : Packet :=
  { op := o, out := true, len := 256, addr := 0x800000000000 ||| off }
/-- A packet on the wire of the Pier's first attachment tile, the port up, window 0 there. -/
def pierState (h : Nat) (p : Packet) (st : PortState) : State :=
  let s := hostPort h { state := st }
  { s with tiles := [((Block.pcie h).tiles.headD 0, { rtr := { wire := [((Block.pcie h).dir.port, [p])] } })], windows := [(0, win0)] }
def atPort (p : Packet) : Bool := ((pierState 0 p .up).atPier 0 p).isSome

theorem test_wit_PortsUpAndDown :
    (let s := (hostPort 3 {}).modMgmt fun m => { m with pcieRails := true }
     s.mgmt.pcieRails = true ∧ (s.port 3).perst = true ∧ (s.port 3).linkUp = false ∧ (s.port 3).state ≠ .failed
       ∧ (s.port 3).trained = false)
    ∧ ((hostPort 0 { linkUp := true }).port 0).state = .down ∧ ((hostPort 0 { state := .up }).port 0).state = .up
    ∧ ((hostPort 2 { perst := false }).port 2).perst = false := by decide

theorem test_wit_free_number : tFree ([] : Tab Packet) 768 = some 0 := by
  rw [tFree, show (768 : Nat) = 767 + 1 from rfl, List.range_succ_eq_map]; rfl

theorem test_wit_HostWindowTraffic :
    ((pierState 0 (winPkt .put 0) .down).portUp 0 = false ∧ atPort (winPkt .put 0))
    ∧ (let p := winPkt .put 0xFF01
       atPort p ∧ (pierState 0 p .up).portUp 0 = true ∧ (pierState 0 p .up).ringPut p = none
         ∧ (pierState 0 p .up).winAdmits 0 p = false)
    ∧ (let p := winPkt .put 0xFF00
       atPort p ∧ (pierState 0 p .up).winAdmits 0 p = true ∧ tGet? (pierState 0 p .up).windows (addrWin p.addr) = some win0)
    ∧ (let p := winPkt .get 0xFF00
       atPort p ∧ (pierState 0 p .up).winAdmits 0 p = true ∧ ((pierState 0 p .up).port 0).outstanding = [])
    ∧ ((0 : Nat) < 256 ∧ cut4k 0xF01 256 = [(0xF01, 0, 255), (0x1000, 255, 1)])
    ∧ (tGet? ((hostPort 3 { outstanding := [(767, winPkt .get 0)] }).port 3).outstanding 767 = some (winPkt .get 0))
    ∧ (tGet? ((hostPort 3 { outstanding := [(767, winPkt .atomic 0)] }).port 3).outstanding 767 = some (winPkt .atomic 0)) := by
  decide

/-- A work ring of 2 entries of 32 bytes at host address 0x1000, for queue 0 of tile 0; and a completion ring. -/
def work : Ring :=
  { base := 0x1000, ctl := 0x2000, kind := 0, port := 0, log2 := 1, esz := 1, pollUs := 1, queue := 0, win := 0, target := 0,
    msix := none, modUs := 0, waitMs := 1 }
def done : Ring := { work with kind := 2, msix := some 1, pollUs := 0 }
def ringed (r : Nat) (x : Ring) : State := { hostPort 0 { state := .up } with rings := [(r, x)], windows := [(0, { win0 with ring := true })] }
/-- An entry whose first word holds a sequence number and LEN. -/
def slotBytes (k len : Nat) : List (Nat × Byte) :=
  (List.range 32).map fun i => (0x1000 + i, (leBytes 4 (k + 65536 * len)).getD i 0)
def readSlot (k len : Nat) : List Byte := readAt (slotBytes k len) (work.slotAt 0) work.slotSize
/-- Entry 0 of ring 255 is in delivery, its SEND the fourth operation of the Pier's bulk mover, on the wire as OPID 5. -/
def flying : Delivery := { n := 0, work := true, dest := 0, left := [3], since := some 0 }
def pierSend (st : OpState) : IssueOp :=
  { State.reset.pierOp 255 0 .send 0 (queueAddr 0 0) 4 [1, 2, 3, 4] with st := st, serial := 3, id := 5 }
def delivering (st : OpState) : State :=
  (ringed 255 { work with n := 1, flight := [flying] }).modPni 0 fun n => { n with ops := [pierSend st] }
def ansPkt (c : Code) : Packet := { op := .resp, vc := 1, out := true, opid := 5, serial := 3, code := c }
def ringAns (st : OpState) (c : Code) : State :=
  { delivering st with
    tiles := [((Block.pcie 0).tiles.headD 0, { rtr := { wire := [((Block.pcie 0).dir.port, [ansPkt c])] } })] }

theorem test_wit_RingsDeliver :
    (let s := ringed 255 work
     tGet? s.rings 255 = some work ∧ s.portUp work.port = true ∧ 2 ^ work.log2 < ((3 : BitVec 32).toNat % 65536 + 65536 - 0) % 65536
       ∧ ((2 : BitVec 32).toNat % 65536 + 65536 - 0) % 65536 ≤ 2 ^ work.log2)
    ∧ (let x := { work with prompt := true }
       let s := ringed 0 x
       x.kind ≠ 2 ∧ x.state = .running ∧ s.portUp x.port = true ∧ x.prompt = true)
    ∧ (let x := { work with fetching := true }
       let s := (ringed 0 x).modRing 0 fun x => { x with fetching := false }
       x.fetching = true ∧ bitsN (entryWord (readSlot 2 4) 0) 0 16 ≠ (x.n + 1) % 65536
         ∧ bitsN (entryWord (readSlot 1 4) 0) 0 16 = (x.n + 1) % 65536 ∧ s.entryBad x (readSlot 1 3) = true
         ∧ s.entryBad x (readSlot 1 33) = true ∧ s.entryBad x (readSlot 1 4) = false ∧ s.entryBad x (readSlot 1 32) = false)
    ∧ (let s := ringed 255 { work with fetching := true }
       (s.attachFor (.pcie 0) 0).isSome = true ∧ (s.port 0).ni.ops = [] ∧ (s.port 0).ni.allStopped = false ∧ (s.port 0).ni.stopped = [])
    ∧ (let s := ringAns (.sent 0) .ok
       (s.port 0).ni.ops = [pierSend (.sent 0)] ∧ (s.atPier 0 (ansPkt .ok)).isSome = true
         ∧ answered (ansPkt .ok) (s.port 0).ni.ops = some 0 ∧ answerFits (pierSend (.sent 0)) (ansPkt .ok) = true
         ∧ flying.left = [(pierSend (.sent 0)).serial] ∧ (pierSend (.sent 0)).ring = some (255, 0))
    ∧ ((∀ c ∈ [Code.spanReset, .readerGone, .destOff], ((ringAns (.sent 0) c).atPier 0 (ansPkt c)).isSome = true
        ∧ answerFits (pierSend (.sent 0)) (ansPkt c) = true) ∧ Code.destOff.isFailure = true)
    ∧ (((ringAns .requested .retry).atPier 0 (ansPkt .retry)).isSome = true ∧ answerFits (pierSend .requested) (ansPkt .retry) = true)
    ∧ (((ringAns .waiting .ok).atPier 0 (ansPkt .ok)).isSome = true ∧ answered (ansPkt .ok) [pierSend .waiting] = none)
    ∧ (let s := { delivering .requested with time := Config.ms 1 }
       (pierSend .requested).st = .requested ∧ flying.left.contains 3 = true ∧ flying.since = some 0
         ∧ 0 + Config.ms work.waitMs ≤ s.time)
    ∧ (let s := { delivering (.sent 0) with now := 67108864 }
       (pierSend (.sent 0)).st = .sent 0 ∧ 0 + 67108864 ≤ s.now)
    ∧ (let x := { work with state := .held }
       let s := { ringed 0 x with spans := [(0, spanRun)] }
       s.spanOf x.heldOn = some 0 ∧ x.state = .held ∧ (s.span 0).state = .running ∧ x.flight = [] ∧ x.stopping = false)
    ∧ (let x := { work with state := .faulted }
       (9 : BitVec 32).toNat % 8 = 1 ∧ (2 : BitVec 32).toNat % 8 = 2 ∧ (4 : BitVec 32).toNat % 8 = 4 ∧ x.resumable = true) := by
  decide

/-- A PUT of the completion ring's body to its window, and its Pier's wire. -/
def bodyPkt : Packet := { op := .put, out := true, len := 24, addr := 0x800000000000, data := List.replicate 24 1 }
def comp (x : Ring) : State :=
  { ringed 0 x with tiles := [((Block.pcie 0).tiles.headD 0, { rtr := { wire := [((Block.pcie 0).dir.port, [bodyPkt])] } })] }

theorem test_wit_CompletionRings :
    (let s := comp { done with n := 1 }
     s.portUp 0 = true ∧ s.ringPut bodyPkt = some 0 ∧ (s.atPier 0 bodyPkt).isSome = true ∧ ({ done with n := 1 } : Ring).isFull = false)
    ∧ (let s := comp { done with n := 2 }
       s.portUp 0 = true ∧ s.ringPut bodyPkt = some 0 ∧ (s.atPier 0 bodyPkt).isSome = true ∧ ({ done with n := 2 } : Ring).isFull = true)
    ∧ (let x := { done with n := 2, full := some (bodyPkt, 0) }
       let s := { ringed 0 x with time := Config.ms 1 }
       x.full = some (bodyPkt, 0) ∧ x.kind = 2 ∧ x.lastPollAt + Config.us 1 ≤ s.time ∧ s.portUp x.port = true
         ∧ ({ x with hostIdx := 0 % 2 ^ 32 } : Ring).isFull = true
         ∧ ({ x with hostIdx := 1 % 2 ^ 32 } : Ring).isFull = false
         ∧ 0 + Config.ms x.waitMs ≤ s.time)
    ∧ (let x := { done with unannounced := true }
       let s := ringed 0 x
       x.unannounced = true ∧ x.msix = some 1 ∧ x.lastMsix = none ∧ (s.port x.port).maskedVec 1 = true
         ∧ (({ s.port x.port with msix := [(7, 0)] } : PciePort).maskedVec 1) = false) := by decide

/-! ## Viaduct: states that meet what the statements assume -/

def vported (p : Nat) (x : VdtPort) : State := State.reset.modVport p fun _ => x
/-- Engine 0 has a peer, engine 1, with one pair: port 0 here, port 31 there. -/
def peered (x : VdtPort) (f : Viaduct → Viaduct) : State :=
  (vported 0 x).modVdt fun v => f { v with present := true, master := 1, backup := 0, peers := [(1, { pairs := [(0, 31)] })] }
def gotIt (k : Packet) : VdtPort := { state := .up, received := [k] }
def hasIt (s : State) (k : Packet) : Bool := (s.takeReceived 0 k).isSome && !k.ret

theorem test_wit_ViaductPortLife :
    (let s := { (vported 31 { state := .training }).modMgmt fun m => { m with vdtRails := true } with time := Config.sec 10 }
     (s.vport 31).state = .training ∧ (s.vport 31).windowAt = none ∧ s.mgmt.vdtRails = true
       ∧ s.time ≤ (s.vport 31).trainAt + Config.sec 10 ∧ (s.vport 31).trainAt + Config.sec 10 ≤ s.time)
    ∧ (let s := { vported 0 { state := .training, windowAt := some 0 } with time := Config.ms 100 }
       (s.vport 0).windowAt = some 0 ∧ (s.vport 0).state = .training ∧ 0 + Config.ms 100 ≤ s.time)
    ∧ (let x : VdtPort := { state := .degraded, replay := [(0, [], 4)] }; ∃ r ∈ x.replay, 4 ≤ r.2.2) := by decide

/-- Lanes 0 to 14 and the like: each group of Table 17.1 as the widest, and no group. -/
theorem test_wit_lanes :
    ((0x7FFF : BitVec 16) ≠ 0xFFFF ∧ (0x00FF : BitVec 16) &&& 0x7FFF = 0x00FF)
    ∧ (¬ (0x00FF : BitVec 16) &&& 0xFFFE = 0x00FF ∧ (0xFF00 : BitVec 16) &&& 0xFFFE = 0xFF00)
    ∧ (¬ (0x00FF : BitVec 16) &&& 0x7FEF = 0x00FF ∧ ¬ (0xFF00 : BitVec 16) &&& 0x7FEF = 0xFF00 ∧ (0x000F : BitVec 16) &&& 0x7FEF = 0x000F)
    ∧ (¬ (0xFF00 : BitVec 16) &&& 0x7FFE = 0xFF00 ∧ ¬ (0x000F : BitVec 16) &&& 0x7FFE = 0x000F ∧ (0x00F0 : BitVec 16) &&& 0x7FFE = 0x00F0)
    ∧ (¬ (0xFF00 : BitVec 16) &&& 0x7FEE = 0xFF00 ∧ ¬ (0x00F0 : BitVec 16) &&& 0x7FEE = 0x00F0 ∧ (0x0F00 : BitVec 16) &&& 0x7FEE = 0x0F00)
    ∧ (¬ (0x0F00 : BitVec 16) &&& 0xFEEE = 0x0F00 ∧ (0xF000 : BitVec 16) &&& 0xFEEE = 0xF000)
    ∧ (∀ g ∈ [(0x000F : BitVec 16), 0x00F0, 0x0F00, 0xF000], ¬ g &&& 0xEEEE = g) := by
  simp

/-- One replay more than a second may hold. -/
theorem test_wit_replay_rate :
    1000 < (({ state := .up, replayTimes := List.replicate 1001 0 } : VdtPort).replayTimes.filter
      fun a => State.reset.clk.master < a + 1000000000).length := by
  rw [List.filter_eq_self.2 fun a ha => by rw [List.eq_of_mem_replicate ha]; decide, List.length_replicate]
  decide

def frame0 : Frame :=
  { fseq := 0, ack := 0xFFF, nak := false, slots := 0, credits := [0, 0, 0], fecOk := true, crcOk := true, packets := [] }

theorem test_wit_FramesReceived :
    (let s := vported 0 { state := .up }
     (s.vport 0).state = .up ∧ ({ frame0 with fecOk := false } : Frame).fecOk = false ∧ ({ frame0 with crcOk := false } : Frame).fecOk = true
       ∧ ({ frame0 with slots := 1, fseq := 4095 } : Frame).slots ≠ 0 ∧ (s.vport 0).expect ≠ 4095 ∧ (frame0.fseq + 1) % 4096 ≠ (s.vport 0).expect
       ∧ ({ frame0 with slots := 1 } : Frame).fseq = (s.vport 0).expect
       ∧ (({ frame0 with fseq := 4095 } : Frame).fseq + 1) % 4096 = (s.vport 0).expect ∧ (s.vport 0).waiting = []) := by decide

theorem test_wit_FabricPackets :
    (let k : Packet := { op := .resp, vc := 1, deng := 1, seng := 1 }
     let s := peered (gotIt k) id
     hasIt s k ∧ k.op.pierOnly = false ∧ k.deng ≠ s.mgmt.engId ∧ k.op.isRequest = false)
    ∧ (let k : Packet := { op := .put, deng := 255, seng := 1 }
       let s := peered (gotIt k) id
       hasIt s k ∧ k.deng ≠ s.mgmt.engId ∧ k.op.isRequest = true)
    ∧ (let k : Packet := { op := .resp, vc := 1, srcKind := 2, seng := 1 }
       let s := peered (gotIt k) id
       hasIt s k ∧ k.deng = s.mgmt.engId ∧ k.srcKind = 2)
    ∧ (let k : Packet := { op := .put, seng := 1, srcEng := 1 }
       let s := peered { gotIt k with injected := [⟨0, 1, 7, 5, 3, 0⟩] } id
       hasIt s k ∧ s.mustHold 0 0 = true)
    ∧ (let k : Packet := { op := .put, seng := 1, srcEng := 1 }
       let s := { peered { gotIt k with injected := [⟨0, 1, 7, 5, 3, 0⟩] } id with now := 67108864 }
       hasIt s k ∧ s.mustHold 0 0 = false)
    ∧ (let k : Packet := { op := .getResp, vc := 1, seng := 1 }
       hasIt (peered (gotIt k) id) k)
    ∧ (let k : Packet := { op := .get, deng := 1, dport := 31, ret := true }
       let s := peered (gotIt k) id
       (s.takeReceived 0 k).isSome = true ∧ s.allPairs = [(1, 0, 0, 31)]) := by decide

/-- A parity group of engines 0 and 1. -/
def groupOf1 : Sys2Proof.Machine.Group := { id := 0, index := 0, members := [0, 1], pwin := 0, rebuild := false, rsnap := 0 }

theorem test_wit_PairsInService :
    (let s := { peered { state := .up } (fun v => { v with outOf := [(1, 0)], helloAt := [(4, 0)] }) with time := Config.sec 1 }
     s.pair 1 0 = some (0, 31) ∧ (s.vport 0).state.runs = true ∧ (s.vdt.hellos.any fun h => h.1 = 1 && h.2.1 = 0) = false
       ∧ s.pairOut 1 0 = true ∧ tGet 0 s.vdt.helloAt (4 * 1 + 0) + Config.sec 1 ≤ s.time)
    ∧ (let k : Packet := { op := .hello, vc := 1, seng := 1 }
       let s := peered (gotIt k) id
       hasIt s k ∧ k.deng = s.mgmt.engId ∧ s.allPairs.find? (fun q => q.1 = k.seng && q.2.2.1 = 0) = some (1, 0, 0, 31))
    ∧ (let k : Packet := { op := .helloAck, vc := 1, seng := 1 }
       let s := ({ peered (gotIt k) (fun v => { v with hellos := [(1, 0, 0)] }) with
         time := Config.ms 1, ckpt := { groups := [groupOf1] } }).modMgmt fun m => { m with glostDone := true }
       hasIt s k ∧ ((s.vdt.hellos.filter fun h => s.time ≤ h.2.2 + Config.ms 1 && (s.pair h.1 h.2.1).any (·.1 = 0)).find? (·.1 = k.seng))
           = some (1, 0, 0)
         ∧ s.ckpt.groups[0]? = some groupOf1 ∧ groupOf1.members.contains 1 = true ∧ groupOf1.checked.contains 1 = false
         ∧ s.mgmt.glostDone = true)
    ∧ (let k : Packet := { op := .helloAck, vc := 1, seng := 2 }
       let s := peered (gotIt k) (fun v => { v with hellos := [(1, 0, 0)] })
       hasIt s k ∧ (s.vdt.hellos.filter fun h => s.time ≤ h.2.2 + Config.ms 1 && (s.pair h.1 h.2.1).any (·.1 = 0)) = [(1, 0, 0)]
         ∧ [((1 : Nat), (0 : Nat), (0 : Nat))].find? (·.1 = k.seng) = none)
    ∧ (let s := { peered {} (fun v => { v with hellos := [(1, 0, 0)] }) with time := Config.ms 1 + 1 }
       s.vdt.hellos.find? (fun h => h.1 = 1 && h.2.1 = 0) = some (1, 0, 0) ∧ 0 + Config.ms 1 < s.time)
    ∧ (let s := peered {} (fun v => { v with change := [(1, 0, true)] })
       s.vdt.change ≠ [] ∧ s.routes.change = none ∧ s.mgmt.ksReset = none) := by decide

theorem test_wit_TimeFollowsMaster :
    (let s := (peered { state := .up } id).modClk fun c => { c with master := 100000 }
     s.vdt.present = true ∧ s.vdt.selfId ≠ s.vdt.master ∧ s.vdt.src ≠ 3 ∧ s.vdt.exchangeAt + 100000 ≤ s.clk.master
       ∧ s.vdt.t1 = none ∧ s.pair s.vdt.masterNow 0 = some (0, 31))
    ∧ (let v := (peered {} fun v => { v with t1 := some 0, missed := 9, backup := 2 }).vdt
       v.missed + 1 = 10 ∧ v.src ≠ 2 ∧ v.backup ≠ v.selfId)
    ∧ (let v := (peered {} fun v => { v with t1 := some 0, missed := 9 }).vdt
       v.missed + 1 = 10 ∧ v.src ≠ 2 ∧ v.backup = v.selfId)
    ∧ (let k : Packet := { op := .timeReq, vc := 1, seng := 1 }
       let s := peered (gotIt k) id
       hasIt s k ∧ k.deng = s.mgmt.engId ∧ s.allPairs.find? (fun q => q.1 = k.seng && q.2.2.1 = 0) = some (1, 0, 0, 31))
    ∧ (let k : Packet := { op := .timeResp, vc := 1, seng := 1, data := leBytes 8 1001 ++ leBytes 8 1001 }
       let s := peered (gotIt k) fun v => { v with t1 := some 0 }
       hasIt s k ∧ s.vdt.t1 = some 0 ∧ k.seng = s.vdt.masterNow ∧ s.pair k.seng 0 = some (0, 31)
         ∧ (((1001 : Int) - 0) - ((0 : Int) - 1001)) / 2 = 1001) := by decide

theorem test_wit_KeystoneRecovers :
    (bisque State.reset).mgmt.st = .bisque ∧ (let m := (withMgmt fun m => { m with st := .rom, elected := true, peer := true }).mgmt
      m.st = .rom ∧ m.elected = true ∧ m.recovery = false ∧ m.peer = true)
    ∧ (let s := (ready State.reset).modClk fun c => { c with master := 60000000000 }
       let s := s.modMgmt fun m => { m with lastKsReset := some 0 }
       s.inService = true ∧ s.mgmt.ksReset = none ∧ 0 + 60000000000 ≤ s.clk.master)
    ∧ (let s := (ready State.reset).modMgmt fun m => { m with lastKsReset := some 0 }
       s.mgmt.lastKsReset = some 0 ∧ s.clk.master < 0 + 60000000000)
    ∧ (let s := { (ready State.reset).modMgmt fun m => { m with ksReset := some 0 } with time := Config.sec 2 }
       s.mgmt.ksReset = some 0 ∧ 0 + Config.sec 2 ≤ s.time) := by decide
/-! ## Recovery, events and the sideband: states that meet what the statements assume -/

theorem test_wit_PartsAreRetired :
    (let s := { State.reset with routes := { deadLinks := [(1179647, .west)] } }
     s.mgmt.ksReset = none ∧ (1179647, Dir.west) ∈ s.routes.deadLinks ∧ s.usable 1179647 = true ∧ s.cutOff 1179647 = false)
    ∧ (let s := { one { rtr := { dead := 0xF } } with routes := { deadLinks := [(0, .east)] } }
       s.usable 0 = true ∧ s.cutOff 0 = true)
    ∧ (let s := { State.reset with routes := { probes := [(0, 0)] }, time := Config.us 100 }
       tGet? s.routes.probes 0 = some 0 ∧ 0 + Config.us 100 ≤ s.time ∧ s.usable 0 = true) := by decide

def rcved (r : Rcv) : State := State.reset.modKs .south fun k => { k with rcv := r }

theorem test_wit_ImageReplaced :
    (let s := ready ((rcved { len := 8192, phase := .failed }).modPort 1 fun p => { p with linkUp := true })
     portSide 1 = .south ∧ (s.port 1).linkUp = true ∧ (0xF1A50100 : BitVec 32).toNat / 65536 = 0xF1A5
       ∧ (0xF1A50100 : BitVec 32).getLsbD 8 = true ∧ (0xF1A50100 : BitVec 32).getLsbD 9 = false ∧ s.inService = true
       ∧ (s.ks .south).rcv.phase = .failed ∧ (s.ks .south).rcv.rangeOk = true)
    ∧ (({ len := 67112960 } : Rcv).rangeOk = false)
    ∧ ((0xF1A50200 : BitVec 32).toNat / 65536 = 0xF1A5 ∧ (0xF1A50200 : BitVec 32).getLsbD 9 = true
      ∧ (0xF1A50200 : BitVec 32).getLsbD 8 = false ∧ ((rcved { phase := .checking }).ks .south).rcv.phase = .checking)
    ∧ (let s := ready ((rcved { len := 4096, phase := .idle }).modPort 0 fun p => { p with linkUp := true })
       portSide 0 = .south ∧ (s.port 0).linkUp = true ∧ (s.ks .south).rcv.phase = .idle ∧ (s.ks .south).rcv.rangeOk = false)
    ∧ imageCause (hostImage [] 0 0) 8192 0 0 = 3
    ∧ ((rcved { phase := .erasing }).ks .south).rcv.phase = .erasing
    ∧ ((rcved { phase := .programming }).ks .south).rcv.phase = .programming := by decide

/-- The digest read back may agree or differ, and the rest of the image's verdict is as in `test_wit_image_verified`. -/
theorem test_wit_readback :
    (let s := rcved { phase := .readback, digest := imgDigest [], secver := 255 }
     (s.ks .south).rcv.phase = .readback ∧ imgDigest (s.ks .south).flash = (s.ks .south).rcv.digest
       ∧ imageCause (s.ks .south).flash 67108864 0 0 = 3 ∧ lockVersion (s.ks .south).lock < (s.ks .south).rcv.secver)
    ∧ (let s := rcved { phase := .readback, digest := imgDigest [] + 1 }
       ¬ imgDigest (s.ks .south).flash = (s.ks .south).rcv.digest ∧ ¬ lockVersion (s.ks .south).lock < (s.ks .south).rcv.secver) :=
  ⟨⟨rfl, rfl, by decide, by decide⟩, (Nat.succ_ne_self _).symm, by decide⟩

def rec2 : EvRec :=
  { code := 0x0504, sev := 2, src := 1, kind := 0, gtime := 0, tile := some 0, field := some 0, span := none, count := 1, arg := 0,
    seqNo := 0 }
def logged (p : PciePort) : State :=
  { ready (hostPort 0 p) with status := { log := [rec2], next := 1, pubAt := some 0 }, time := Config.us 100 }

theorem test_wit_WindowPublished :
    (let s := logged { state := .up, msix := [(3, 0)] }
     s.managed = true ∧ s.mgmt.ksReset = none ∧ 0 + Config.us 10 ≤ s.time ∧ s.status.pubAt = some 0 ∧ s.portUp 0 = true
       ∧ s.status.alarm = true ∧ (s.port 0).lastV0 = none ∧ (s.port 0).maskedVec 0 = false)
    ∧ ((logged { state := .up }).port 0).maskedVec 0 = true
    ∧ (let s := logged { state := .up, lastV0 := some 1 }
       (s.port 0).lastV0 = some 1 ∧ s.time < 1 + Config.us 100)
    ∧ (logged {}).portUp 0 = false := by decide

def deadRep : EventReport := { code := 0x0504, src := 1, tile := some 0, field := some 0, arg := 0 }
def fullRep : EventReport := { code := 0x0401, src := 1, tile := some 0, field := some 0, arg := 1 }

theorem test_wit_EventsAreLogged :
    (let s := { State.reset with status := { reports := [deadRep] } }
     s.status.reports = [deadRep] ∧ s.mgmt.ksReset = none ∧ deadRep.code ≠ 0x0401 ∧ mergeReport deadRep s.clk.master s.status.log = none)
    ∧ (let s := { State.reset with status := { reports := [deadRep], log := [rec2] }, clk := { master := 1000000 } }
       (mergeReport deadRep s.clk.master s.status.log).isSome = true)
    ∧ mergeReport deadRep 1000001 [rec2] = none
    ∧ (let s := { State.reset with status := { reports := [fullRep], qfull := [(1, 0, 0)] }, clk := { master := 2000000 } }
       fullRep.tile = some 0 ∧ (fullRep.arg, 0, 0) ∈ s.status.qfull ∧ s.clk.master ≤ 0 + 2000000
         ∧ ∀ d ∈ s.status.deadlocks, d.1 = 0 ∧ d.2.1 = fullRep.arg ∨ d.1 = fullRep.arg ∧ d.2.1 = 0 → d.2.2 + 2000000 < s.clk.master) := by
  decide

def perf1 : PerfRun := ⟨1, 0, 20, 0, 0, 0⟩
def collecting (p : PerfRun) : State :=
  { (ready (spanOne spanRun {})).modClk fun c => { c with master := 20000 } with status := { run := some p } }

theorem test_wit_PerformanceCollected :
    (let s := ready (spanOne spanRun {})
     s.inService = true ∧ s.status.run = none ∧ s.perfBad perf1 = false ∧ s.perfBad ⟨1, 0, 19, 0, 0, 0⟩ = true
       ∧ (BitVec.ofNat 32 (2 ^ 30 + 20 * 2 ^ 11)).toNat / 2 ^ 30 = 1 ∧ (BitVec.ofNat 32 (2 ^ 30 + 20 * 2 ^ 11)).toNat / 2 ^ 11 % 128 = 20)
    ∧ (let s := collecting perf1
       s.status.run = some perf1 ∧ perf1.at_ + 1000 * perf1.period ≤ s.clk.master ∧ s.mgmt.ksReset = none ∧ perf1.mode = 1
         ∧ s.status.newCtrl = false ∧ (s.span 0).layout.tiles = [0] ∧ s.usable 0 = true)
    ∧ (let s := collecting { perf1 with mode := 2 }
       (s.span 0).layout.lattice 0 0 = [(0, 0)] ∧ s.usable (tileId 0 0) = true) := by decide

theorem test_wit_SidebandServes :
    (0x801024 % 0x800000 = 0x1024 ∧ (ready State.reset).inService = true ∧ 0x1030 % 0x800000 = 0x1030)
    ∧ (ready State.reset).managed = true ∧ (1 % 4 ≠ 0 ∧ (1024 : Nat) ≤ 1024 ∧ 1024 < (1028 : Nat))
    ∧ ((0x1000 : BitVec 32).toNat / 4096 % 4 = 1 ∧ (0x2000 : BitVec 32).toNat / 4096 % 4 = 2 ∧ (0x3000 : BitVec 32).toNat / 4096 % 4 = 3
      ∧ (0 : BitVec 32).toNat / 4096 % 4 = 0)
    ∧ (tGet? (ringed 255 work).rings 255 = some work ∧ work.port = 0 ∧ work.port ≠ 1) := by decide

theorem test_wit_SaggerAnswers :
    (ready State.reset).sgrServes .sideband = true ∧ (ready (hostPort 3 { linkUp := true })).sgrServes (.port 3) = true
    ∧ (ready State.reset).mgmt.elected = false ∧ (ready State.reset).sgr.idOk = false ∧ (ready State.reset).sgr.aliasOk = false
    ∧ (let s := { ready State.reset with sgr := { idOk := true, aliasOk := true } }
       s.sgrServes .sideband = true ∧ s.sgr.idOk = true ∧ s.sgr.aliasOk = true) := by decide

/-- A session of port 0, and stream 0 of the port with the keys of set 0. -/
def sess : Session := { tr := .port 0, open_ := true, beatAt := 0 }
def slot0 : KeySlot := ⟨0, false, 0⟩
def keyed (x : IdeStream) : State :=
  { ready (hostPort 0 { linkUp := true }) with
    sgr := { idOk := true, sessions := [(0, sess), (1, { sess with open_ := false })], streams := [(0, x)] }, time := Config.sec 180 }

theorem test_wit_SessionsAndKeys :
    (let s := keyed {}
     s.sgrServes (.port 0) = true ∧ s.sgr.idOk = true ∧ s.sgr.sessions.length < 4 ∧ tGet? s.sgr.sessions 1 = some { sess with open_ := false }
       ∧ tGet? s.sgr.sessions 0 = some sess ∧ sess.beatAt + Config.sec 180 ≤ s.time ∧ tGet? s.sgr.sessions 2 = none)
    ∧ 4 ≤ (({ sessions := (List.range 4).map fun i => (i, sess) } : Sagger).sessions).length
    ∧ (let s := keyed {}
       (∃ y, tGet? s.sgr.sessions 0 = some y ∧ y.tr = .port 0 ∧ y.open_ = true) ∧ slot0.set < 2 ∧ slot0.sub < 3
         ∧ (∀ q ∈ (tGet {} s.sgr.streams 0).going, q.set ≠ slot0.set))
    ∧ (let s := keyed { keys := [(slot0, 7)], going := [slot0] }
       (∃ q ∈ (tGet {} s.sgr.streams 0).going, q.set = slot0.set) ∧ (∃ e ∈ (tGet {} s.sgr.streams 0).keys, e.1 = slot0))
    ∧ (¬ ((⟨2, false, 0⟩ : KeySlot).set < 2) ∧ ¬ ((⟨0, false, 3⟩ : KeySlot).sub < 3)) := by
  refine ⟨by decide, by decide, ⟨⟨_, rfl, by decide⟩, by decide⟩, by decide, by decide⟩

/-! ## Training: states that meet what the statements assume -/

/-- Snapshots each 4 s, one shard window of 2 MiB slots, bytes 0 to 3 of span 0's tiles. -/
def parImage : Mem :=
  [(6, 1), (7, 0), (64, 7), (68, 128), (69, 0), (70, 0), (71, 0), (72, 72), (73, 0), (74, 0), (75, 0), (128, 4), (129, 0), (130, 0),
    (131, 1), (132, 2), (133, 0), (134, 0), (135, 0), (136, 0), (192, 0), (193, 0), (194, 0), (195, 0), (196, 3), (197, 0)]
def parRead (s : State) : State := s.modKs .south fun k => { k with img := parImage }
def training (p : Pad) (c : Ckpt) : State :=
  let x : Span := { state := .changing, op := some { opAt (.course []) 3 with capture := true } }
  let s := ready (spanOne x { pad := p })
  { parRead (s.modPort 0 fun q => { q with state := .up }) with ckpt := c, windows := [(0, { win0 with len := 4194304 })] }

theorem test_wit_SnapshotsTaken :
    (let s := (training {} {}).modClk fun c => { c with master := 4000000000 }
     (sect s.image 7).isSome = true ∧ s.inService = true ∧ s.mgmt.ksReset = none
       ∧ s.ckpt.lastDue < s.clk.master / 1000000000 / parInterval s.image ∧ s.ckpt.n = 0)
    ∧ (let s := training {} { n := 1, capturing := [0] }
       (s.span 0).op.any (·.capture) = true ∧ s.ckpt.capturing.contains 0 = true ∧ (parSpans s.image).find? (·.1 = 0) = some (0, 0, 3)
         ∧ s.ckpt.n ≠ 0 ∧ s.mgmt.st ≠ .glost ∧ s.winsUp (parWins s.image) = true ∧ s.winDowns (parWins s.image) = s.ckpt.downs
         ∧ s.spanTiles 0 = [0] ∧ (s.tile 0).pad.bad 0 4 = false ∧ (s.tile 0).pad.anyOff 0 4 = false ∧ s.ckpt.waiting = [])
    ∧ (let s := training { on := 0xFE } { n := 1, capturing := [0] }
       ∃ t ∈ s.spanTiles 0, (s.tile t).pad.anyOff 0 4 = true)
    ∧ (let s := training {} { n := 1, capturing := [0], downs := 1 }
       s.winDowns (parWins s.image) ≠ s.ckpt.downs)
    ∧ (let s := training {} { n := 1, written := true }
       s.ckpt.written = true ∧ tGet? s.windows ((parWins s.image).getD 0 0) = some { win0 with len := 4194304 })
    ∧ shardFits parImage (parWins parImage) 4 = true ∧ shardFits [] [0] 1 = false
    ∧ (let s := (training {} { n := 1, waiting := [0] }).modClk fun c => { c with master := 5000000000 }
       s.ckpt.waiting ≠ [] ∧ lateTime s.image s.ckpt.n ≤ s.clk.master) := by decide

/-- Position 9 of a group of engines 0 to 9; engine 1 is a peer through port 0. -/
def grp : Sys2Proof.Machine.Group :=
  { id := 5, index := 9, members := List.range 10, pwin := 0, rebuild := true, rsnap := 3, pn := 1 }
def parPkt (sub : BitVec 4) : Packet :=
  { op := .parity, sub := sub, queue := 5, rid := 1, seng := 1, data := [1, 2, 3], old := 256, srcKind := 2 }
def hears (g : Sys2Proof.Machine.Group) (k : Packet) : State :=
  { ready (peered (gotIt k) id) with ckpt := { groups := [g] }, windows := [(0, win0)] }
def heard (g : Sys2Proof.Machine.Group) (k : Packet) : Bool :=
  let s := hears g k
  (s.takeReceived 0 k).isSome && k.op = .parity && !k.ret && k.deng = s.mgmt.engId && g.hears k
/-- Seven positions have ended before any byte of the stripe, so a stripe waits for position 1 alone. -/
def nearlyDone : Sys2Proof.Machine.Group := { grp with ends := ((List.range 8).filter (· ≠ 1)).map fun i => (i, 0) }

theorem test_wit_ParityAndRebuild :
    (heard { grp with refused := true } (parPkt 0) ∧ heard { grp with refused := true } (parPkt 1))
    ∧ (heard grp (parPkt 0) ∧ grp.accepts 1 = true ∧ grp.members[(parPkt 0).rid]? = some (parPkt 0).seng
      ∧ grp.pieces.contains (1, 0, 0) = false ∧ (grp.addPiece 1 (parPkt 0)).stripeDone 0 = false)
    ∧ (let g := { nearlyDone with ends := (List.range 8).map fun i => (i, 0) }
       heard g (parPkt 0) ∧ g.accepts 1 = true ∧ (g.addPiece 1 (parPkt 0)).stripeDone 0 = true ∧ g.wrote.contains 0 = false
         ∧ ((hears g (parPkt 0)).modPort 0 fun p => { p with state := .up }).slotUp g = true)
    ∧ (heard grp (parPkt 1) ∧ grp.pieces = [] ∧ grp.members.idxOf (parPkt 1).seng = 1
      ∧ ∃ q ∈ grp.sources, tGet? (tPut grp.ends 1 256) q = none)
    ∧ (heard nearlyDone (parPkt 1) ∧ ∀ q ∈ nearlyDone.sources, tGet? (tPut nearlyDone.ends 1 256) q ≠ none)
    ∧ (let g := { grp with index := 7, rebuilding := true, asked := [1] }
       heard g (parPkt 1) ∧ g.accepts 1 = true ∧ g.index ≤ 7 ∧ ∀ q ∈ g.sources, tGet? (tPut g.ends 1 256) q ≠ none)
    ∧ (grp.pn ≠ 0 ∧ lateTime parImage grp.pn ≤ 5000000000)
    ∧ ((hears grp (parPkt 0)).inService = true ∧ grp.rebuild = true ∧ grp.started = false ∧ (hears grp (parPkt 0)).mgmt.ksReset = none
      ∧ (hears grp (parPkt 0)).answersHello 1 = true)
    ∧ (heard grp (parPkt 2) ∧ (hears grp (parPkt 2)).ckpt.capturing = [] ∧ (hears grp (parPkt 2)).served grp (parPkt 2) .failed = none
      ∧ (hears grp (parPkt 2)).served grp (parPkt 2) (.bytes [(0xFF0, 0x53), (0xFF1, 0x50), (0xFF2, 0x43), (0xFF3, 0x4B)] 0) = some [])
    ∧ (let g := { grp with rebuilding := true, asked := [1] }
       heard g (parPkt 3) ∧ g.accepts (g.members.idxOf (parPkt 3).seng) = true) := by decide

/-! ## All commands -/

theorem test_wit_CommandsAnswer :
    refuses (exec (.alu 1179647 (.undef16 0x841C)) State.reset) .illFormed
    ∧ (Instr.cNop 1179647 ⟨1, 0, 0⟩).seqWf = true ∧ (Instr.cNop 1179648 ⟨1, 0, 0⟩).seqTile = some 1179648
    ∧ nextIs (exec (.cNop 0 ⟨1, 0, 0⟩) (loaded (.cNop 0 ⟨1, 0, 0⟩))) (fun u => (u.seq 0).pc = 2) := by decide

theorem test_wit_SequencerCodeAgrees :
    (let i : Instr := .rmoPut 1179647 ⟨15, 15, 15, 15, 31⟩; i.seqTile = some 1179647 ∧ i.seqWf = true ∧ i.word.isSome)
    ∧ (let i : Instr := .alu 0 (.undef16 2); i.seqWf = true ∧ i.word = some (2, 2)) := by decide

/-- Memory with bytes listed, canonical; a step from there, and one with no command waiting. -/
theorem test_wit_StepKeepsForm :
    (let x : Tile := { pad := { mem := [(0, 1), (65535, 2)] }, istore := [(0, 1)] }
     x.memWf = true ∧ nextIs (step { one x with pending := [.cNop 0 ⟨1, 0, 0⟩] }) (fun u => u.pending = []))
    ∧ Mem.wf erased [(0, 1)] = true ∧ Mem.wf erased [(0, 0xFF)] = false := by decide
/-! ## The spec's worked examples, and single steps -/

/-- Chapter 01: tile (700, 1000) is tile 1,024,700, in field 45. -/
theorem test_tile_number : tileId 700 1000 = 1024700 ∧ fieldOf 1024700 = 45 := by decide

/-- Chapter 02: an offset above the range wraps in ADDI's sum; s0 reads 0 and discards what is written. -/
theorem test_addi_wraps :
    nextIs (exec (.addi 0 (.w ⟨3, 2, -5⟩)) (loadedSeq (.addi 0 (.w ⟨3, 2, -5⟩)) fun q => { q with regs := [(2, 4)] }))
      (fun u => (u.seq 0).reg 3 = 0xFFFFFFFF && (u.seq 0).pc = 4) := by decide
theorem test_s0_discards :
    nextIs (exec (.addi 0 (.w ⟨0, 2, 7⟩)) (loaded (.addi 0 (.w ⟨0, 2, 7⟩)))) (fun u => (u.seq 0).reg 0 = 0) := by decide

/-- Chapter 02: a command for an instruction that is not the one at the program counter changes nothing. -/
theorem test_other_instruction :
    nextIs (exec (.cNop 0 ⟨1, 0, 0⟩) (loaded (.addi 0 (.w ⟨3, 2, -5⟩)))) (fun u => (u.seq 0).pc = 0) := by decide

/-- Table 02.8: an undefined encoding is cause 0x01, at the vector, with TRAPPC the instruction's own address. -/
theorem test_undefined_traps :
    nextIs (exec (.alu 0 (.undef16 2)) (loadedSeq (.alu 0 (.undef16 2)) fun q => { q with trapVec := 0x100 }))
      (fun u => (u.seq 0).state = .trap && (u.seq 0).pc = 0x100 && (u.seq 0).trapPc = 0 && !(u.seq 0).trapEn) := by decide

/-- Chapter 04: element 9 and element 8 of the BS2-E2M1 example. -/
theorem test_bs2_element :
    toBinary32 15 0xB (decodeScale 0x7A) (decodeF ⟨4, 3, 7, false, true⟩ 0x3A) = (0xBD700000, 0)
    ∧ toBinary32 15 0x1 (decodeScale 0x7A) (decodeF ⟨4, 3, 7, false, true⟩ 0x3A) = (0, 0) := by decide +kernel

/-- Table 04.7: the two rows that no bound touches. -/
theorem test_convert_specials : convert 4 0x7F800000 = (0x7E, 0x02) ∧ convert 4 0xFFC00000 = (0x7F, 0x01) := by decide +kernel

/-- Chapter 04: the group of four products, with b1 a NaN and with b1 = 2.0. -/
theorem test_group_special :
    group [] [(num32 0x7F000000, num32 0x40800000), (num32 0x3F800000, num32 0xFFF00001), (num32 0x40400000, num32 0x40200000),
      (num32 0x3E800000, num32 0xC1000000)] 0 false = (0x7FC00000, 0x03)
    ∧ group [] [(num32 0x7F000000, num32 0x40800000), (num32 0x3F800000, num32 0x40000000), (num32 0x40400000, num32 0x40200000),
      (num32 0x3E800000, num32 0xC1000000)] 0 false = (0x7F800000, 0x02) := by decide +kernel

/-- Chapter 09: input 0, forced by its count of 16, wins against input 9. -/
theorem test_forced_input_wins : winner 16 (fun n => if n = 0 then 16 else 3) [0, 9] = some 0 := by decide
/-- Without a forced input the highest is granted (R199). -/
theorem test_highest_input_wins : winner 16 (fun n => if n = 0 then 15 else 3) [0, 9] = some 9 := by decide

/-- Chapter 09: bank 2 asked by input 2, forced, and by input 6. -/
theorem test_bank_forced :
    nextIs (exec (.bankPortArbitration 0 [⟨2, 2, false, false⟩, ⟨6, 2, false, false⟩] []) (one { pad := { wait := [(2, 16)], stream := [(2, [2048])] } }))
      (fun u => (u.tile 0).pad.granted = [⟨2, 2, false, false⟩] && tGet 0 (u.tile 0).pad.wait 6 = 1 && tGet 0 (u.tile 0).pad.wait 2 = 0) := by
  decide

/-- Chapter 12: with the root in field (2, 0), field 21 has wave number 5 and field (7, 5) 10; the listed field's record. -/
theorem test_waves :
    (({ State.reset with clk := { fx := 2 } } : State).wave 21 = 5) ∧ (({ State.reset with clk := { fx := 2 } } : State).wave 47 = 10)
    ∧ (MapRec.field 21 1 1).word = 0x89000015 ∧ (linkOf 927497 .east) = (927497, 0) ∧ (MapRec.link 927497 0 1).word = 0x480E2709 := by
  decide

/-- Chapter 20: byte 0 of the lock area reading 0xE0 is five programmed bits, version 5. -/
theorem test_lock_version : lockVersion 0x1F = 5 := by decide

/-- Chapter 22: with engine ID 0x17 latched, KST_ENGINE_ID reads 0x0000_0117. -/
theorem test_input_valid :
    nextIs (exec (.inputValid 0x17 3) State.reset) (fun u => u.mgmt.slotValid && u.mgmt.engId = 0x17 && u.mgmt.feedId = 3) := by decide

/-- Chapter 21: the fields of 0x8000_5220 are MODE 2, SPAN 0, PERIOD 10, XSTEP 4, YSTEP 4. -/
theorem test_perf_ctrl :
    nextIs (exec (.perfCtrlWrite 0x80005220) (ready { State.reset with spans := [(0, { layout := { x1 := 1023, y1 := 511 }, state := .running })] }))
      (fun u => u.status.mode = 2 && u.status.span = 0 && u.status.period = 10 && u.status.xstep = 4 && u.status.ystep = 4) := by decide

/-- One command at a time, the first first; with none waiting a cycle passes. -/
theorem test_queue_order :
    nextIs (step { loaded (.cNop 0 ⟨1, 0, 0⟩) with pending := [.cNop 0 ⟨1, 0, 0⟩, .fence 0 (.c ⟨2, 0, 0⟩)] })
      (fun u => u.pending = [.fence 0 (.c ⟨2, 0, 0⟩)] && (u.seq 0).pc = 2) := by decide
theorem test_idle_ticks : nextIs (step State.reset) (fun u => u.pending = [] && State.reset.time < u.time) := by decide

end Sys2Proof.Tests
end

section
/-! PROOFS. A write to a plain register of a tile, and the watchdog limit that it stores (R9, R63). -/

namespace Sys2Proof.Machine

/-- A command to a tile the engine has takes effect on it (R12). -/
theorem onTile_of_lt {t : Nat} (ht : t < Config.nTiles) (s : State) (f : State → Out) : onTile t s f = f s :=
  if_pos ht

/-- A write to a listed register outside the action table and the instruction store takes effect in every state of the
sequencer (R9). -/
theorem exec_registerWrite_tile {t off : Nat} (ht : t < Config.nTiles) (hl : regListed off = true)
    (hs : regStore off = false) (s : State) (keystone : Bool) (v : Word) :
    exec (.registerWrite (.tile t off keystone) v) s = .next (s.regWrite t off v keystone) := by
  rw [exec_registerWrite, execRegisterWrite, onTile_of_lt ht]
  simp [hl, hs]

/-- TILE_WDOG keeps what is written, moved into its range (R63). -/
theorem State.regWrite_wdog (s : State) (t : Nat) (v : Word) (keystone : Bool) :
    s.regWrite t 0x0C v keystone
      = s.modTile t (·.modSeq fun q => { q with wdogLimit := clampN 1024 2147483648 v.toNat }) := by
  simp [State.regWrite]

/-- The sequencer of a tile after a change to it. -/
@[simp] theorem State.seq_modTile_modSeq (s : State) (t : Nat) (f : Seq → Seq) :
    (s.modTile t (·.modSeq f)).seq t = f (s.seq t) := by
  simp [State.seq, Tile.modSeq]

/-- Settles O19: 0x0C is a listed register outside the stores, so its write takes effect, and the limit it stores is the
written value clamped. -/
theorem watchdogLimitClamped : Obligations.WatchdogLimitClamped := by
  intro s t v ht
  refine ⟨s.regWrite t 0x0C v false, exec_registerWrite_tile ht (by decide) (by decide) s false v, ?_⟩
  rw [State.regWrite_wdog, State.seq_modTile_modSeq, clampN]

end Sys2Proof.Machine
end

section
/-! PROOFS. The steering wait that a register write stores (R82). -/

namespace Sys2Proof.Machine

/-- The low `n` bits of a word, on numbers. -/
theorem bitsW_zero_eq_mod (v : Word) (n : Nat) : bitsW v 0 n = v.toNat % 2 ^ n := by
  simp [bitsW, bitsN]

/-- TILE_STEER_WAIT keeps the written WAIT field, moved into its range (R82). -/
theorem State.regWrite_steerWait (s : State) (t : Nat) (v : Word) (keystone : Bool) :
    s.regWrite t 0x30 v keystone
      = s.modTile t (·.modDf fun d => { d with steerWait := clampN 256 16777216 (v.toNat % 2 ^ 25) }) := by
  simp [State.regWrite, bitsW_zero_eq_mod]

/-- The dataflow state of a tile after a change to it. -/
theorem State.df_modTile_modDf (s : State) (t : Nat) (f : Df → Df) :
    ((s.modTile t (·.modDf f)).tile t).df = f (s.tile t).df := by
  simp [Tile.modDf]

/-- Settles O20: 0x30 is a listed register outside the stores, so its write takes effect, and the wait it stores is the
low 25 bits of the written value clamped. -/
theorem steerWaitClamped : Obligations.SteerWaitClamped := by
  intro s t v ht w
  refine ⟨s.regWrite t 0x30 v false, exec_registerWrite_tile ht (by decide) (by decide) s false v, ?_⟩
  rw [State.regWrite_steerWait, State.df_modTile_modDf, clampN]

end Sys2Proof.Machine
end

section
/-! PROOFS. A router sends a packet toward its target, x before y, and every such hop comes one tile closer (R204). -/

namespace Sys2Proof.Machine

/-! ## What a router does with a packet whose target is elsewhere, or here -/

/-- What holds of the direction toward a tile holds of east and west while x differs, and then of north and south. -/
theorem forall_toward {t u : Nat} {P : Dir → Prop} (h : ∀ d, toward t u = some d → P d) :
    (tileX t < tileX u → P .east) ∧ (tileX u < tileX t → P .west)
      ∧ (tileX t = tileX u → tileY t < tileY u → P .north) ∧ (tileX t = tileX u → tileY u < tileY t → P .south) :=
  ⟨fun hx => h _ (toward_east hx), fun hx => h _ (toward_west hx), fun hx hy => h _ (toward_north hx hy),
    fun hx hy => h _ (toward_south hx hy)⟩

/-- The router of `t` answers `p`, come by port `i`, with `q` by the output `d` where that is not blocked. -/
def State.sends (s : State) (t i : Nat) (p q : Packet) (d : Dir) : Prop :=
  s.blockedDir t d = false → s.hop t i p = .out [d.port] q

/-- A packet routed as `q` goes toward `u`, the target of `q`: x first, then y (R204). -/
theorem State.sends_toward {n : Nat} {s : State} {t i u : Nat} {p q : Packet} (hr : s.hop t i p = s.route (n + 1) t q)
    (hu : (if q.wpv then q.waypoint else q.dest) = u) :
    (tileX t < tileX u → s.sends t i p q .east) ∧ (tileX u < tileX t → s.sends t i p q .west)
      ∧ (tileX t = tileX u → tileY t < tileY u → s.sends t i p q .north)
      ∧ (tileX t = tileX u → tileY u < tileY t → s.sends t i p q .south) := by
  subst hu
  exact forall_toward fun d h hb => hr.trans (State.route_go h hb)

/-- A packet routed as `q`, without a waypoint, leaves at DEST by the local port, or by the outward port where OUT is 1
(R204). -/
theorem State.hop_at_dest {n : Nat} {s : State} {t i : Nat} {p q : Packet} (hr : s.hop t i p = s.route (n + 1) t q)
    (hw : q.wpv = false) (h : t = q.dest) :
    (q.out = false → s.hop t i p = .out [0] q)
      ∧ (q.out = true → ∀ d, outDir t = some d → s.sends t i p q d) :=
  ⟨fun ho => hr.trans (State.route_home hw h ho), fun ho _ hd hb => hr.trans (State.route_out hw h ho hd hb)⟩

/-! ## Coordinates, and the tile that a direction leads to -/

theorem lt_nTiles_iff {t : Nat} : t < Config.nTiles ↔ tileY t < Config.rows := by
  simp only [tileY, Config.nTiles, Config.rows, Config.cols]; omega

theorem tileX_lt (t : Nat) : tileX t < Config.cols := Nat.mod_lt t (by decide)

/-- A tile's two coordinates name it (R12). -/
theorem tile_ext {t u : Nat} (hx : tileX t = tileX u) (hy : tileY t = tileY u) : t = u := by
  simp only [tileX, tileY, Config.cols] at hx hy; omega

theorem neighbour_east {t : Nat} (h : tileX t + 1 < Config.cols) :
    ∃ v, neighbour t .east = some v ∧ tileX v = tileX t + 1 ∧ tileY v = tileY t := by
  refine ⟨t + 1, if_pos h, ?_⟩
  simp only [tileX, tileY, Config.cols] at h ⊢; omega

theorem neighbour_west {t : Nat} (h : 0 < tileX t) :
    ∃ v, neighbour t .west = some v ∧ tileX v + 1 = tileX t ∧ tileY v = tileY t := by
  refine ⟨t - 1, if_pos h, ?_⟩
  simp only [tileX, tileY, Config.cols] at h ⊢; omega

theorem neighbour_north {t : Nat} (h : tileY t + 1 < Config.rows) :
    ∃ v, neighbour t .north = some v ∧ tileX v = tileX t ∧ tileY v = tileY t + 1 := by
  refine ⟨t + Config.cols, if_pos h, ?_⟩
  simp only [tileX, tileY, Config.cols]; omega

theorem neighbour_south {t : Nat} (h : 0 < tileY t) :
    ∃ v, neighbour t .south = some v ∧ tileX v = tileX t ∧ tileY v + 1 = tileY t := by
  refine ⟨t - Config.cols, if_pos h, ?_⟩
  simp only [tileX, tileY, Config.cols] at h ⊢; omega

/-! ## Each hop comes closer -/

/-- What the direction toward a tile says of the coordinates: x differs, or only y does (R204). -/
theorem toward_cases {t u : Nat} {d : Dir} (h : toward t u = some d) :
    (d = .east ∧ tileX t < tileX u) ∨ (d = .west ∧ tileX u < tileX t)
      ∨ (d = .north ∧ tileX t = tileX u ∧ tileY t < tileY u) ∨ (d = .south ∧ tileX t = tileX u ∧ tileY u < tileY t) := by
  unfold toward at h
  split_ifs at h with he hw hn hs <;> cases h
  · exact .inl ⟨rfl, he⟩
  · exact .inr (.inl ⟨rfl, hw⟩)
  · exact .inr (.inr (.inl ⟨rfl, by omega, hn⟩))
  · exact .inr (.inr (.inr ⟨rfl, by omega, hs⟩))

/-- Only at the target is there no further direction. -/
theorem toward_eq_none_iff {t u : Nat} : toward t u = none ↔ t = u := by
  refine ⟨fun h => ?_, fun h => h ▸ toward_self t⟩
  have hne : ∀ d, toward t u = some d → False := fun d hd => by simp [hd] at h
  obtain ⟨he, hw, hn, hs⟩ := forall_toward hne
  have hx : tileX t = tileX u := Nat.le_antisymm (Nat.not_lt.1 hw) (Nat.not_lt.1 he)
  exact tile_ext hx (Nat.le_antisymm (Nat.not_lt.1 (hs hx)) (Nat.not_lt.1 (hn hx)))

/-- The hops between two tiles: the columns and the rows between them. -/
def meshDistance (a b : Nat) : Nat :=
  (tileX a - tileX b) + (tileX b - tileX a) + (tileY a - tileY b) + (tileY b - tileY a)

/-- The direction toward a tile leads to a tile of the mesh one hop closer to it, along y only where x agrees (R204). -/
theorem neighbour_toward {t u : Nat} {d : Dir} (ht : t < Config.nTiles) (hu : u < Config.nTiles)
    (h : toward t u = some d) :
    ∃ v, neighbour t d = some v ∧ v < Config.nTiles ∧ meshDistance v u + 1 = meshDistance t u
      ∧ ((d = .north ∨ d = .south) → tileX t = tileX u) := by
  rw [lt_nTiles_iff] at ht hu
  simp only [lt_nTiles_iff, meshDistance]
  obtain ⟨rfl, hx⟩ | ⟨rfl, hx⟩ | ⟨rfl, hx, hy⟩ | ⟨rfl, hx, hy⟩ := toward_cases h
  · obtain ⟨v, hv, hvx, hvy⟩ := neighbour_east (t := t) (by have := tileX_lt u; omega)
    exact ⟨v, hv, by omega, by omega, by simp⟩
  · obtain ⟨v, hv, hvx, hvy⟩ := neighbour_west (t := t) (by omega)
    exact ⟨v, hv, by omega, by omega, by simp⟩
  · obtain ⟨v, hv, hvx, hvy⟩ := neighbour_north (t := t) (by omega)
    exact ⟨v, hv, by omega, by omega, fun _ => hx⟩
  · obtain ⟨v, hv, hvx, hvy⟩ := neighbour_south (t := t) (by omega)
    exact ⟨v, hv, by omega, by omega, fun _ => hx⟩

/-- Settles O23: a packet is routed by the direction toward its target, at its waypoint as one that has none (with the 19
steps of fuel that are left), and the neighbour in that direction is one hop closer. -/
theorem routingApproaches : Obligations.RoutingApproaches := by
  refine ⟨fun s t i p hc => ?_, fun t u ht hu => ⟨toward_eq_none_iff, fun d => neighbour_toward ht hu⟩⟩
  have hr : s.hop t i p = s.route 20 t p := State.hop_route s t i p hc
  refine ⟨fun hw => ⟨State.sends_toward hr (if_pos hw), fun ht => ?_⟩,
    fun hw => ⟨State.sends_toward hr (by simp [hw]), State.hop_at_dest hr hw⟩⟩
  have hleft : s.hop t i p = s.route 19 t { p with wpv := false } := hr.trans (State.route_waypoint hw ht)
  exact ⟨State.sends_toward hleft rfl, State.hop_at_dest hleft rfl⟩

end Sys2Proof.Machine
end
